-- ==== Sys2Proof/Word.lean ====
section
/-! DEFINITION. The widths of KK-PCS and its two index ranges (spec 00_scope.md R5). -/

namespace Sys2Proof

/-- A register, the unit of every access (20_memory.md R63). -/
abbrev Reg := BitVec 16

/-- A register's word address (10_state.md R22). -/
abbrev Addr := BitVec 8

/-- One transaction word on BUS_REQ (30_encoding.md R80). -/
abbrev BusWord := BitVec 32

/-- A capture channel: 0 roll, 1 pitch, 2 collective, 3 yaw (10_state.md R20). -/
abbrev Chan := Fin 4

/-- A pulse output, or a command slot: 0..5 (00_scope.md R5). -/
abbrev Slot := Fin 6

/-- The capture channels in the order of 41_capture.md R120. -/
def allChans : List Chan := [0, 1, 2, 3]

/-- The outputs in the order of 43_synth.md R182 and R183. -/
def allSlots : List Slot := [0, 1, 2, 3, 4, 5]

end Sys2Proof
end

