-- ==== Sys2Proof/Syntax.lean ====
section
/-! DEFINITION. The instructions of KK-PCS: the host's bus transactions, one constructor for each of the 62 rows of
spec/opcode_table.json (30_encoding.md R89). -/

namespace Sys2Proof

/-- A legal bus transaction. A read has no data operand: its DATA bits are ignored (30_encoding.md R82). A write
keeps all 16 bits of DATA as the host sent them. `n` is ADDR[1:0] of a capture row, `k` and `o` are ADDR[2:0] of
a synthesizer row (30_encoding.md R85). -/
inductive Instr where
  /-- RD ID (R102). -/
  | rdId
  /-- RD STATUS (R103). -/
  | rdStatus
  /-- RD IRQ_PEND (R104). -/
  | rdIrqPend
  /-- WR IRQ_PEND (R105). -/
  | wrIrqPend (v : Reg)
  /-- RD IRQ_EN (R106). -/
  | rdIrqEn
  /-- WR IRQ_EN (R107). -/
  | wrIrqEn (v : Reg)
  /-- RD TCNT (R108). -/
  | rdTcnt
  /-- CMD CLR_ERR (R110). -/
  | cmdClrErr
  /-- CMD CAP_CLR (R134). -/
  | cmdCapClr
  /-- CMD PID_STEP (R170). -/
  | cmdPidStep
  /-- CMD PID_CLR (R171). -/
  | cmdPidClr
  /-- CMD SYN_COMMIT (R210). -/
  | cmdSynCommit
  /-- CMD SYN_CANCEL (R211). -/
  | cmdSynCancel
  /-- CMD SOFT_RESET (R111). -/
  | cmdSoftReset
  /-- RD CAP_CTRL (R126). -/
  | rdCapCtrl
  /-- WR CAP_CTRL (R127). -/
  | wrCapCtrl (v : Reg)
  /-- RD CAP_FENCE (R128). -/
  | rdCapFence
  /-- RD CAP_WIDTH n (R129). -/
  | rdCapWidth (n : BitVec 2)
  /-- RD CAP_START n (R130). -/
  | rdCapStart (n : BitVec 2)
  /-- RD CAP_AXIS n (R131). -/
  | rdCapAxis (n : BitVec 2)
  /-- RD CAP_CENTER n (R132). -/
  | rdCapCenter (n : BitVec 2)
  /-- WR CAP_CENTER n (R133). -/
  | wrCapCenter (n : BitVec 2) (v : Reg)
  /-- RD PID_CTRL (R152). -/
  | rdPidCtrl
  /-- WR PID_CTRL (R153). -/
  | wrPidCtrl (v : Reg)
  /-- RD PID_SP (R154). -/
  | rdPidSp
  /-- WR PID_SP (R155). -/
  | wrPidSp (v : Reg)
  /-- RD PID_PV (R156). -/
  | rdPidPv
  /-- WR PID_PV (R157). -/
  | wrPidPv (v : Reg)
  /-- RD PID_KP (R158). -/
  | rdPidKp
  /-- WR PID_KP (R159). -/
  | wrPidKp (v : Reg)
  /-- RD PID_ELIM (R160). -/
  | rdPidElim
  /-- WR PID_ELIM (R161). -/
  | wrPidElim (v : Reg)
  /-- RD PID_EPS (R162). -/
  | rdPidEps
  /-- WR PID_EPS (R163). -/
  | wrPidEps (v : Reg)
  /-- RD PID_COLL (R164). -/
  | rdPidColl
  /-- WR PID_COLL (R165). -/
  | wrPidColl (v : Reg)
  /-- RD PID_INT (R166). -/
  | rdPidInt
  /-- RD PID_LASTERR (R167). -/
  | rdPidLasterr
  /-- RD PID_OUT (R168). -/
  | rdPidOut
  /-- RD PID_STAT (R169). -/
  | rdPidStat
  /-- RD SYN_CTRL (R190). -/
  | rdSynCtrl
  /-- WR SYN_CTRL (R189). -/
  | wrSynCtrl (v : Reg)
  /-- RD SYN_OUTEN (R192). -/
  | rdSynOuten
  /-- WR SYN_OUTEN (R191). -/
  | wrSynOuten (v : Reg)
  /-- RD SYN_WIDE (R194). -/
  | rdSynWide
  /-- WR SYN_WIDE (R193). -/
  | wrSynWide (v : Reg)
  /-- RD SYN_SLOW (R196). -/
  | rdSynSlow
  /-- WR SYN_SLOW (R195). -/
  | wrSynSlow (v : Reg)
  /-- RD SYN_LOW (R198). -/
  | rdSynLow
  /-- WR SYN_LOW (R197). -/
  | wrSynLow (v : Reg)
  /-- RD SYN_DIV (R200). -/
  | rdSynDiv
  /-- WR SYN_DIV (R199). -/
  | wrSynDiv (v : Reg)
  /-- RD SYN_ROUTE0 (R202). -/
  | rdSynRoute0
  /-- WR SYN_ROUTE0 (R201). -/
  | wrSynRoute0 (v : Reg)
  /-- RD SYN_ROUTE1 (R204). -/
  | rdSynRoute1
  /-- WR SYN_ROUTE1 (R203). -/
  | wrSynRoute1 (v : Reg)
  /-- RD SYN_FSTART (R205). -/
  | rdSynFstart
  /-- RD SYN_DIVPH (R206). -/
  | rdSynDivph
  /-- RD SYN_LEVEL (R207). -/
  | rdSynLevel
  /-- RD SYN_CMD k (R209). -/
  | rdSynCmd (k : BitVec 3)
  /-- WR SYN_CMD k (R208). -/
  | wrSynCmd (k : BitVec 3) (v : Reg)
  /-- RD SYN_ACT o (R212). -/
  | rdSynAct (o : BitVec 3)
deriving DecidableEq, Repr, Inhabited

end Sys2Proof
end

