-- ==== Sys2Proof/WellFormed.lean ====
section
/-! DEFINITION. The operands a row of the opcode table admits: its constraints (spec 30_encoding.md R85, R87, R89). -/

namespace Sys2Proof

/-- A nibble of a ROUTE register names one of the six command slots (10_state.md R49). -/
def legalNibble (x : BitVec 4) : Bool := decide (x.toNat ≤ 5)

/-- "every nibble of DATA <= 5" (30_encoding.md R87 item 6). -/
def legalRoute0 (v : Reg) : Bool :=
  legalNibble (v.extractLsb' 0 4) && legalNibble (v.extractLsb' 4 4) &&
    legalNibble (v.extractLsb' 8 4) && legalNibble (v.extractLsb' 12 4)

/-- "DATA[3:0] <= 5 and DATA[7:4] <= 5" (30_encoding.md R87 item 7). -/
def legalRoute1 (v : Reg) : Bool :=
  legalNibble (v.extractLsb' 0 4) && legalNibble (v.extractLsb' 4 4)

/-- "ADDR[2:0] <= 5" (30_encoding.md R85). -/
def legalSlot (k : BitVec 3) : Bool := decide (k.toNat ≤ 5)

/-- The constraint of the instruction's row; a row without one admits every operand. -/
def Instr.wellFormed (i : Instr) : Bool :=
  match i with
  | .rdSynCmd k => legalSlot k
  | .wrSynCmd k _ => legalSlot k
  | .rdSynAct o => legalSlot o
  | .wrSynRoute0 v => legalRoute0 v
  | .wrSynRoute1 v => legalRoute1 v
  | .rdId | .rdStatus | .rdIrqPend | .wrIrqPend _ | .rdIrqEn | .wrIrqEn _ | .rdTcnt
  | .cmdClrErr | .cmdCapClr | .cmdPidStep | .cmdPidClr | .cmdSynCommit | .cmdSynCancel | .cmdSoftReset
  | .rdCapCtrl | .wrCapCtrl _ | .rdCapFence | .rdCapWidth _ | .rdCapStart _ | .rdCapAxis _
  | .rdCapCenter _ | .wrCapCenter _ _
  | .rdPidCtrl | .wrPidCtrl _ | .rdPidSp | .wrPidSp _ | .rdPidPv | .wrPidPv _ | .rdPidKp | .wrPidKp _
  | .rdPidElim | .wrPidElim _ | .rdPidEps | .wrPidEps _ | .rdPidColl | .wrPidColl _
  | .rdPidInt | .rdPidLasterr | .rdPidOut | .rdPidStat
  | .rdSynCtrl | .wrSynCtrl _ | .rdSynOuten | .wrSynOuten _ | .rdSynWide | .wrSynWide _
  | .rdSynSlow | .wrSynSlow _ | .rdSynLow | .wrSynLow _ | .rdSynDiv | .wrSynDiv _
  | .rdSynRoute0 | .rdSynRoute1 | .rdSynFstart | .rdSynDivph | .rdSynLevel => true

end Sys2Proof
end

