-- ==== Sys2Proof/Decode.lean ====
section
/-! DEFINITION. The decoder of the transaction word BUS32, total on every word and refusing by name, and the encoder
(spec 30_encoding.md R80 to R89, 20_memory.md R66). -/

namespace Sys2Proof

/-- Why a word is an illegal transaction: the item of 30_encoding.md R87 that holds (the first, where item 1 holds
together with another; log 9). -/
inductive Illegal where
  /-- Item 1: RSV is not zero. -/
  | reservedField
  /-- Item 2: ADDR is unmapped. -/
  | unmapped
  /-- Item 3: a write to a register of access kind R. -/
  | readOnly
  /-- Item 4: a read of CMD. -/
  | readOfCmd
  /-- Item 5: a write to CMD of a value that is no command code. -/
  | commandCode
  /-- Item 6: a write to SYN_ROUTE0 with a nibble above 5. -/
  | route0Nibble
  /-- Item 7: a write to SYN_ROUTE1 with a route nibble above 5. -/
  | route1Nibble
deriving DecidableEq, Repr

/-- The mapped addresses, as 20_memory.md R66 lists them. -/
def mappedAddr (a : Addr) : Bool :=
  let n := a.toNat
  decide (n ≤ 0x05) || decide (0x10 ≤ n ∧ n ≤ 0x11) || decide (0x14 ≤ n ∧ n ≤ 0x23) ||
    decide (0x30 ≤ n ∧ n ≤ 0x3A) || decide (0x40 ≤ n ∧ n ≤ 0x4A) || decide (0x50 ≤ n ∧ n ≤ 0x55) ||
    decide (0x58 ≤ n ∧ n ≤ 0x5D)

/-- Bit 31, W: 1 for a write (30_encoding.md R80). -/
def fieldW (t : BusWord) : Bool := t.getLsbD 31

/-- Bits 30:24, RSV (30_encoding.md R80). -/
def fieldRsv (t : BusWord) : BitVec 7 := t.extractLsb' 24 7

/-- Bits 23:16, ADDR (30_encoding.md R80). -/
def fieldAddr (t : BusWord) : Addr := t.extractLsb' 16 8

/-- Bits 15:0, DATA (30_encoding.md R80). -/
def fieldData (t : BusWord) : Reg := t.extractLsb' 0 16

/-- The command codes of 30_encoding.md R83. -/
def decodeCommand (v : Reg) : Except Illegal Instr :=
  if v = 0x0001#16 then .ok .cmdClrErr
  else if v = 0x0002#16 then .ok .cmdCapClr
  else if v = 0x0010#16 then .ok .cmdPidStep
  else if v = 0x0011#16 then .ok .cmdPidClr
  else if v = 0x0020#16 then .ok .cmdSynCommit
  else if v = 0x0021#16 then .ok .cmdSynCancel
  else if v = 0x00A5#16 then .ok .cmdSoftReset
  else .error .commandCode

/-- The read rows of 30_encoding.md R89. -/
def decodeRead (a : Addr) : Except Illegal Instr :=
  if a = 0x00#8 then .ok .rdId
  else if a = 0x01#8 then .ok .rdStatus
  else if a = 0x02#8 then .ok .rdIrqPend
  else if a = 0x03#8 then .ok .rdIrqEn
  else if a = 0x04#8 then .ok .rdTcnt
  else if a = 0x10#8 then .ok .rdCapCtrl
  else if a = 0x11#8 then .ok .rdCapFence
  else if a.extractLsb' 2 6 = 0x05#6 then .ok (.rdCapWidth (a.extractLsb' 0 2))
  else if a.extractLsb' 2 6 = 0x06#6 then .ok (.rdCapStart (a.extractLsb' 0 2))
  else if a.extractLsb' 2 6 = 0x07#6 then .ok (.rdCapAxis (a.extractLsb' 0 2))
  else if a.extractLsb' 2 6 = 0x08#6 then .ok (.rdCapCenter (a.extractLsb' 0 2))
  else if a = 0x30#8 then .ok .rdPidCtrl
  else if a = 0x31#8 then .ok .rdPidSp
  else if a = 0x32#8 then .ok .rdPidPv
  else if a = 0x33#8 then .ok .rdPidKp
  else if a = 0x34#8 then .ok .rdPidElim
  else if a = 0x35#8 then .ok .rdPidEps
  else if a = 0x36#8 then .ok .rdPidColl
  else if a = 0x37#8 then .ok .rdPidInt
  else if a = 0x38#8 then .ok .rdPidLasterr
  else if a = 0x39#8 then .ok .rdPidOut
  else if a = 0x3A#8 then .ok .rdPidStat
  else if a = 0x40#8 then .ok .rdSynCtrl
  else if a = 0x41#8 then .ok .rdSynOuten
  else if a = 0x42#8 then .ok .rdSynWide
  else if a = 0x43#8 then .ok .rdSynSlow
  else if a = 0x44#8 then .ok .rdSynLow
  else if a = 0x45#8 then .ok .rdSynDiv
  else if a = 0x46#8 then .ok .rdSynRoute0
  else if a = 0x47#8 then .ok .rdSynRoute1
  else if a = 0x48#8 then .ok .rdSynFstart
  else if a = 0x49#8 then .ok .rdSynDivph
  else if a = 0x4A#8 then .ok .rdSynLevel
  else if a.extractLsb' 3 5 = 0x0A#5 ∧ legalSlot (a.extractLsb' 0 3) then .ok (.rdSynCmd (a.extractLsb' 0 3))
  else if a.extractLsb' 3 5 = 0x0B#5 ∧ legalSlot (a.extractLsb' 0 3) then .ok (.rdSynAct (a.extractLsb' 0 3))
  else if mappedAddr a then .error .readOfCmd
  else .error .unmapped

/-- The write and command rows of 30_encoding.md R89. -/
def decodeWrite (a : Addr) (v : Reg) : Except Illegal Instr :=
  if a = 0x05#8 then decodeCommand v
  else if a = 0x02#8 then .ok (.wrIrqPend v)
  else if a = 0x03#8 then .ok (.wrIrqEn v)
  else if a = 0x10#8 then .ok (.wrCapCtrl v)
  else if a.extractLsb' 2 6 = 0x08#6 then .ok (.wrCapCenter (a.extractLsb' 0 2) v)
  else if a = 0x30#8 then .ok (.wrPidCtrl v)
  else if a = 0x31#8 then .ok (.wrPidSp v)
  else if a = 0x32#8 then .ok (.wrPidPv v)
  else if a = 0x33#8 then .ok (.wrPidKp v)
  else if a = 0x34#8 then .ok (.wrPidElim v)
  else if a = 0x35#8 then .ok (.wrPidEps v)
  else if a = 0x36#8 then .ok (.wrPidColl v)
  else if a = 0x40#8 then .ok (.wrSynCtrl v)
  else if a = 0x41#8 then .ok (.wrSynOuten v)
  else if a = 0x42#8 then .ok (.wrSynWide v)
  else if a = 0x43#8 then .ok (.wrSynSlow v)
  else if a = 0x44#8 then .ok (.wrSynLow v)
  else if a = 0x45#8 then .ok (.wrSynDiv v)
  else if a = 0x46#8 then (if legalRoute0 v then .ok (.wrSynRoute0 v) else .error .route0Nibble)
  else if a = 0x47#8 then (if legalRoute1 v then .ok (.wrSynRoute1 v) else .error .route1Nibble)
  else if a.extractLsb' 3 5 = 0x0A#5 ∧ legalSlot (a.extractLsb' 0 3) then .ok (.wrSynCmd (a.extractLsb' 0 3) v)
  else if mappedAddr a then .error .readOnly
  else .error .unmapped

/-- The instruction a transaction word stands for, or the item of R87 that makes it illegal (30_encoding.md R81,
R87). It depends on the word alone (20_memory.md R71). -/
def decode (t : BusWord) : Except Illegal Instr :=
  if fieldRsv t ≠ 0#7 then .error .reservedField
  else if fieldW t then decodeWrite (fieldAddr t) (fieldData t)
  else decodeRead (fieldAddr t)

/-- The format BUS32 with RSV zero (30_encoding.md R80). -/
def busWord (w : Bool) (a : Addr) (v : Reg) : BusWord := BitVec.ofBool w ++ 0#7 ++ a ++ v

/-- The word of an instruction (30_encoding.md R80, R83, R85, R89). The DATA bits of a read, which the block ignores
(R82), are zero. -/
def encode (i : Instr) : BusWord :=
  match i with
  | .rdId => busWord false 0x00#8 0#16
  | .rdStatus => busWord false 0x01#8 0#16
  | .rdIrqPend => busWord false 0x02#8 0#16
  | .wrIrqPend v => busWord true 0x02#8 v
  | .rdIrqEn => busWord false 0x03#8 0#16
  | .wrIrqEn v => busWord true 0x03#8 v
  | .rdTcnt => busWord false 0x04#8 0#16
  | .cmdClrErr => busWord true 0x05#8 0x0001#16
  | .cmdCapClr => busWord true 0x05#8 0x0002#16
  | .cmdPidStep => busWord true 0x05#8 0x0010#16
  | .cmdPidClr => busWord true 0x05#8 0x0011#16
  | .cmdSynCommit => busWord true 0x05#8 0x0020#16
  | .cmdSynCancel => busWord true 0x05#8 0x0021#16
  | .cmdSoftReset => busWord true 0x05#8 0x00A5#16
  | .rdCapCtrl => busWord false 0x10#8 0#16
  | .wrCapCtrl v => busWord true 0x10#8 v
  | .rdCapFence => busWord false 0x11#8 0#16
  | .rdCapWidth n => busWord false (0x05#6 ++ n) 0#16
  | .rdCapStart n => busWord false (0x06#6 ++ n) 0#16
  | .rdCapAxis n => busWord false (0x07#6 ++ n) 0#16
  | .rdCapCenter n => busWord false (0x08#6 ++ n) 0#16
  | .wrCapCenter n v => busWord true (0x08#6 ++ n) v
  | .rdPidCtrl => busWord false 0x30#8 0#16
  | .wrPidCtrl v => busWord true 0x30#8 v
  | .rdPidSp => busWord false 0x31#8 0#16
  | .wrPidSp v => busWord true 0x31#8 v
  | .rdPidPv => busWord false 0x32#8 0#16
  | .wrPidPv v => busWord true 0x32#8 v
  | .rdPidKp => busWord false 0x33#8 0#16
  | .wrPidKp v => busWord true 0x33#8 v
  | .rdPidElim => busWord false 0x34#8 0#16
  | .wrPidElim v => busWord true 0x34#8 v
  | .rdPidEps => busWord false 0x35#8 0#16
  | .wrPidEps v => busWord true 0x35#8 v
  | .rdPidColl => busWord false 0x36#8 0#16
  | .wrPidColl v => busWord true 0x36#8 v
  | .rdPidInt => busWord false 0x37#8 0#16
  | .rdPidLasterr => busWord false 0x38#8 0#16
  | .rdPidOut => busWord false 0x39#8 0#16
  | .rdPidStat => busWord false 0x3A#8 0#16
  | .rdSynCtrl => busWord false 0x40#8 0#16
  | .wrSynCtrl v => busWord true 0x40#8 v
  | .rdSynOuten => busWord false 0x41#8 0#16
  | .wrSynOuten v => busWord true 0x41#8 v
  | .rdSynWide => busWord false 0x42#8 0#16
  | .wrSynWide v => busWord true 0x42#8 v
  | .rdSynSlow => busWord false 0x43#8 0#16
  | .wrSynSlow v => busWord true 0x43#8 v
  | .rdSynLow => busWord false 0x44#8 0#16
  | .wrSynLow v => busWord true 0x44#8 v
  | .rdSynDiv => busWord false 0x45#8 0#16
  | .wrSynDiv v => busWord true 0x45#8 v
  | .rdSynRoute0 => busWord false 0x46#8 0#16
  | .wrSynRoute0 v => busWord true 0x46#8 v
  | .rdSynRoute1 => busWord false 0x47#8 0#16
  | .wrSynRoute1 v => busWord true 0x47#8 v
  | .rdSynFstart => busWord false 0x48#8 0#16
  | .rdSynDivph => busWord false 0x49#8 0#16
  | .rdSynLevel => busWord false 0x4A#8 0#16
  | .rdSynCmd k => busWord false (0x0A#5 ++ k) 0#16
  | .wrSynCmd k v => busWord true (0x0A#5 ++ k) v
  | .rdSynAct o => busWord false (0x0B#5 ++ o) 0#16

/-- The instruction the decoder reads from the table's word `w` of `nbits` bits. The transaction word is one parallel
32-bit value (20_memory.md R61), so the table's bits are BUS_REQ's bits and no byte order applies (log 8). -/
def decodeTableWord (nbits w : Nat) : Option Instr :=
  match decode (BitVec.ofNat 32 (w % 2 ^ nbits)) with
  | .ok i => some i
  | .error _ => none

/-- One row of the opcode map of 30_encoding.md R89: the bits that are fixed, and where. -/
structure OpcodeRow where
  fixedBits : BusWord
  mask : BusWord
deriving DecidableEq, Repr

/-- The match and mask columns of 30_encoding.md R89, row by row. -/
def opcodeMap : List OpcodeRow := [
  ⟨0x00000000, 0xFFFF0000⟩,
  ⟨0x00010000, 0xFFFF0000⟩,
  ⟨0x00020000, 0xFFFF0000⟩,
  ⟨0x80020000, 0xFFFF0000⟩,
  ⟨0x00030000, 0xFFFF0000⟩,
  ⟨0x80030000, 0xFFFF0000⟩,
  ⟨0x00040000, 0xFFFF0000⟩,
  ⟨0x80050001, 0xFFFFFFFF⟩,
  ⟨0x80050002, 0xFFFFFFFF⟩,
  ⟨0x80050010, 0xFFFFFFFF⟩,
  ⟨0x80050011, 0xFFFFFFFF⟩,
  ⟨0x80050020, 0xFFFFFFFF⟩,
  ⟨0x80050021, 0xFFFFFFFF⟩,
  ⟨0x800500A5, 0xFFFFFFFF⟩,
  ⟨0x00100000, 0xFFFF0000⟩,
  ⟨0x80100000, 0xFFFF0000⟩,
  ⟨0x00110000, 0xFFFF0000⟩,
  ⟨0x00140000, 0xFFFC0000⟩,
  ⟨0x00180000, 0xFFFC0000⟩,
  ⟨0x001C0000, 0xFFFC0000⟩,
  ⟨0x00200000, 0xFFFC0000⟩,
  ⟨0x80200000, 0xFFFC0000⟩,
  ⟨0x00300000, 0xFFFF0000⟩,
  ⟨0x80300000, 0xFFFF0000⟩,
  ⟨0x00310000, 0xFFFF0000⟩,
  ⟨0x80310000, 0xFFFF0000⟩,
  ⟨0x00320000, 0xFFFF0000⟩,
  ⟨0x80320000, 0xFFFF0000⟩,
  ⟨0x00330000, 0xFFFF0000⟩,
  ⟨0x80330000, 0xFFFF0000⟩,
  ⟨0x00340000, 0xFFFF0000⟩,
  ⟨0x80340000, 0xFFFF0000⟩,
  ⟨0x00350000, 0xFFFF0000⟩,
  ⟨0x80350000, 0xFFFF0000⟩,
  ⟨0x00360000, 0xFFFF0000⟩,
  ⟨0x80360000, 0xFFFF0000⟩,
  ⟨0x00370000, 0xFFFF0000⟩,
  ⟨0x00380000, 0xFFFF0000⟩,
  ⟨0x00390000, 0xFFFF0000⟩,
  ⟨0x003A0000, 0xFFFF0000⟩,
  ⟨0x00400000, 0xFFFF0000⟩,
  ⟨0x80400000, 0xFFFF0000⟩,
  ⟨0x00410000, 0xFFFF0000⟩,
  ⟨0x80410000, 0xFFFF0000⟩,
  ⟨0x00420000, 0xFFFF0000⟩,
  ⟨0x80420000, 0xFFFF0000⟩,
  ⟨0x00430000, 0xFFFF0000⟩,
  ⟨0x80430000, 0xFFFF0000⟩,
  ⟨0x00440000, 0xFFFF0000⟩,
  ⟨0x80440000, 0xFFFF0000⟩,
  ⟨0x00450000, 0xFFFF0000⟩,
  ⟨0x80450000, 0xFFFF0000⟩,
  ⟨0x00460000, 0xFFFF0000⟩,
  ⟨0x80460000, 0xFFFF0000⟩,
  ⟨0x00470000, 0xFFFF0000⟩,
  ⟨0x80470000, 0xFFFF0000⟩,
  ⟨0x00480000, 0xFFFF0000⟩,
  ⟨0x00490000, 0xFFFF0000⟩,
  ⟨0x004A0000, 0xFFFF0000⟩,
  ⟨0x00500000, 0xFFF80000⟩,
  ⟨0x80500000, 0xFFF80000⟩,
  ⟨0x00580000, 0xFFF80000⟩
]

/-- The constraint column of 30_encoding.md R89 for a word that matches row `r`: three rows ask for
ADDR[2:0] <= 5, and the two ROUTE writes for nibbles of at most 5. -/
def OpcodeRow.constraint (r : OpcodeRow) (t : BusWord) : Bool :=
  if r.mask = 0xFFF80000 then legalSlot (t.extractLsb' 16 3)
  else if r.fixedBits = 0x80460000 then legalRoute0 (fieldData t)
  else if r.fixedBits = 0x80470000 then legalRoute1 (fieldData t)
  else true

/-- "(t & r.mask) == r.match and every constraint of r holds" (30_encoding.md R81). -/
def OpcodeRow.selects (r : OpcodeRow) (t : BusWord) : Bool :=
  (t &&& r.mask == r.fixedBits) && r.constraint t

end Sys2Proof
end

