-- ==== Sys2Proof/Machine/Operands.lean ====
section
/-! DEFINITION. The arithmetic primitives of 00_scope.md R10 and the operand forms of 30_encoding.md R84. -/

namespace Sys2Proof.Machine

/-! Primitives -/

/-- `clamp(v, lo, hi)` (00_scope.md R10). -/
def clamp (v lo hi : Int) : Int := min (max v lo) hi

/-- `sat16(v)` (00_scope.md R10). -/
def sat16 (v : Int) : Int := clamp v (-32768) 32767

/-- `asr(v, s) = floor(v / 2^s)`, rounding toward minus infinity (00_scope.md R10, 42_pid.md R151): integer division
by a positive number is the floor. -/
def asr (v : Int) (s : Nat) : Int := v / 2 ^ s

/-- `sdiv8(v)`, the division by 8 that rounds toward zero (00_scope.md R10). -/
def sdiv8 (v : Int) : Int := if 0 ≤ v then asr v 3 else asr (v + 7) 3

/-- `wrap16(v)` as a register's 16-bit pattern (00_scope.md R10). -/
def wrap16 (v : Int) : Reg := BitVec.ofInt 16 v

/-- A bit set with bit `i` written (00_scope.md R10, `NAME.FIELD <- v`). -/
def setBit {w : Nat} (x : BitVec w) (i : Nat) (b : Bool) : BitVec w :=
  if b then x ||| BitVec.ofNat w (2 ^ i) else x &&& ~~~BitVec.ofNat w (2 ^ i)

/-! Operand forms (30_encoding.md R84) -/

/-- WARL u16: SYN_LOW stores `min(v, 49535)` (10_state.md R47). -/
def warlLow (v : Reg) : Reg := BitVec.ofNat 16 (min v.toNat 49535)

/-- WARL u8: SYN_DIV stores bits 7:0, and 1 for 0 (10_state.md R48). -/
def warlDiv (v : Reg) : BitVec 8 :=
  let n := v.extractLsb' 0 8
  if n = 0#8 then 1#8 else n

/-- u15: bits 14:0 of PID_ELIM and PID_EPS (10_state.md R41). -/
def lower15 (v : Reg) : BitVec 15 := v.extractLsb' 0 15

/-- A bit set in the low `w` bits; the others are ignored (10_state.md R23). -/
def lowBits (w : Nat) (v : Reg) : BitVec w := v.extractLsb' 0 w

/-- A field's read value: the bits above it read 0 (10_state.md R23). -/
def zext16 {w : Nat} (x : BitVec w) : Reg := x.setWidth 16

/-- The command slot a ROUTE nibble names, if it names one (10_state.md R49). -/
def nibbleSlot (x : BitVec 4) : Option Slot := if h : x.toNat < 6 then some ⟨x.toNat, h⟩ else none

/-- The nibble that stands for a command slot (10_state.md R49). -/
def slotNibble (o : Slot) : BitVec 4 := BitVec.ofNat 4 o.val

/-- The slot or output an ADDR[2:0] names, if it names one (30_encoding.md R85). -/
def indexSlot (k : BitVec 3) : Option Slot := if h : k.toNat < 6 then some ⟨k.toNat, h⟩ else none

/-- The channel an ADDR[1:0] names (30_encoding.md R85). -/
def indexChan (n : BitVec 2) : Chan := n.toFin

end Sys2Proof.Machine
end

