-- ==== Sys2Proof/Config.lean ====
section
/-! DEFINITION. What the block takes from outside: the jitter bound J, the moves of its four agents and the free
choice among them (spec 00_scope.md R6, R7, R8; 10_state.md R57). -/

namespace Sys2Proof

/-- The delays of the two polled outputs drawn at a frame start: `on4` and `off4` are the δon and δoff of
output 4, `on5` and `off5` those of output 5 (00_scope.md R8, 43_synth.md R185). -/
structure Draws where
  on4 : Nat
  off4 : Nat
  on5 : Nat
  off5 : Nat
deriving DecidableEq, Repr, Inhabited

/-- One atomic step of one agent (00_scope.md R7). The line environment has no step of its own: its levels and
delays come with the tick. -/
inductive Stimulus where
  /-- The host issues one transaction word. -/
  | host (word : BusWord)
  /-- The timebase ticks while the lines IN[3:0] read `levels`. -/
  | tick (levels : BitVec 4) (draws : Draws)
  /-- The reset source asserts RST. -/
  | reset
deriving DecidableEq, Repr, Inhabited

namespace Config

/-- SW_JITTER_TICKS, the open parameter J < 8000 of 00_scope.md R6, with no value (log 3). -/
opaque jitter : Fin 8000

/-- The move the agents make when none is scheduled: a free value for each of them, read by the counter
`State.drawIx` (00_scope.md R7 "any interleaving of these steps"; log 2). -/
opaque freeStimulus : Nat → Stimulus

/-- J as a natural number. -/
def jitterTicks : Nat := jitter.val

end Config

end Sys2Proof
end

