-- ==== Sys2Proof/Machine/State.lean ====
section
/-! DEFINITION. The state of KK-PCS, its stop reasons and the state after reset (spec 10_state.md, 70_reset_and_hazards.md
R250 to R252). -/

namespace Sys2Proof.Machine

/-- The capture unit (10_state.md R31 to R37). A bit set holds bit n for channel n. -/
structure Cap where
  /-- CAP_CTRL.EN[3:0] (R31). -/
  en : BitVec 4
  /-- CAP_FENCE, the count of publishes modulo 65536 (R32). -/
  fence : Reg
  /-- CAP_WIDTH[n], the last published width in ticks (R33). -/
  width : Vector Reg 4
  /-- CAP_START[n], TCNT at the last rising edge (R34). -/
  start : Vector Reg 4
  /-- CAP_CENTER[n] (R36). -/
  center : Vector Reg 4
  /-- PREV[3:0], the levels sampled at the last tick (R37). -/
  prev : BitVec 4
  /-- RISE_SEEN[3:0] (R37). -/
  riseSeen : BitVec 4
  /-- VALID[3:0] (R37). -/
  valid : BitVec 4
deriving DecidableEq, Repr

/-- The PID unit (10_state.md R38 to R44). -/
structure Pid where
  /-- PID_CTRL.I_EN (R38). -/
  iEn : Bool
  /-- PID_CTRL.D_EN (R38). -/
  dEn : Bool
  /-- PID_CTRL.I_SHIFT (R38). -/
  iShift : BitVec 4
  /-- PID_CTRL.D_SHIFT (R38). -/
  dShift : BitVec 4
  /-- PID_SP, the s16 setpoint (R39). -/
  sp : Reg
  /-- PID_PV, the s16 measured value (R39). -/
  pv : Reg
  /-- PID_KP, the unsigned 8.8 proportional gain (R40). -/
  kp : Reg
  /-- PID_ELIM[14:0], the error clamp (R41). -/
  elim : BitVec 15
  /-- PID_EPS[14:0], the integral deadband (R41). -/
  eps : BitVec 15
  /-- PID_COLL, the s16 collective value that limits I and D (R42). -/
  coll : Reg
  /-- PID_INT, the s16 integral (R43). -/
  integ : Reg
  /-- PID_LASTERR, the s16 clamped error of the last step (R43). -/
  lastErr : Reg
  /-- PID_OUT, the s16 output of the last step (R43). -/
  out : Reg
  /-- PID_STAT[3:0] = {OSAT, DSAT, ISAT, ESAT} (R44). -/
  stat : BitVec 4
deriving DecidableEq, Repr

/-- The synthesizer (10_state.md R45 to R54). A bit set holds bit o for output o. -/
structure Syn where
  /-- SYN_CTRL.EN (R45). -/
  en : Bool
  /-- SYN_OUTEN[5:0] (R46). -/
  outen : BitVec 6
  /-- SYN_WIDE[5:0] (R46). -/
  wide : BitVec 6
  /-- SYN_SLOW[5:0] (R46). -/
  slow : BitVec 6
  /-- SYN_LOW, the low-pulse interval in ticks (R47). -/
  low : Reg
  /-- SYN_DIV[7:0], the servo-rate divider (R48). -/
  div : BitVec 8
  /-- ROUTE[o], the command slot output o is driven from (R49; log 11). -/
  route : Vector Slot 6
  /-- SYN_FSTART, TCNT at the last frame start (R50). -/
  fstart : Reg
  /-- SYN_DIVPH[7:0], the divider phase (R50). -/
  divph : BitVec 8
  /-- SYN_LEVEL[5:0], the levels of the OUT pins (R51). -/
  level : BitVec 6
  /-- SYN_CMD[k], the s16 staged commands (R52). -/
  cmd : Vector Reg 6
  /-- SYN_ACT[o], the turn-off targets in ticks (R53). -/
  act : Vector Reg 6
  /-- PEND: a commit awaits the next frame start (R54). -/
  pend : Bool
  /-- START_REQ: a frame starts at the next tick (R54). -/
  startReq : Bool
  /-- ACTIVE[5:0]: output o makes transitions in this frame (R54). -/
  active : BitVec 6
  /-- ON_AT[o], an integer number of elapsed ticks (R54; log 14). -/
  onAt : Vector Nat 6
  /-- OFF_AT[o], an integer number of elapsed ticks (R54; log 14). -/
  offAt : Vector Nat 6
deriving DecidableEq, Repr

/-- Everything 10_state.md gives the block, and the model's own account of what the block's environment does next. -/
structure State where
  /-- TCNT, the free-running counter (R28). -/
  tcnt : Reg
  /-- IRQ_PEND[10:0] (R26). -/
  irqPend : BitVec 11
  /-- IRQ_EN[10:0] (R27). -/
  irqEn : BitVec 11
  /-- BUSERR, the sticky illegal-transaction flag (R30). -/
  busErr : Bool
  /-- The capture unit. -/
  cap : Cap
  /-- The PID unit. -/
  pid : Pid
  /-- The synthesizer. -/
  syn : Syn
  /-- BUS_RDATA as the last step left it: the value a read transaction returned, `none` after every other step, when
  no value is specified (R20, 30_encoding.md R80, 93_implementation_defined.md S8; log 7). -/
  busRdata : Option Reg
  /-- The MODEL's own field: the moves the agents make next, the first one first (00_scope.md R7; log 1). -/
  schedule : List Stimulus
  /-- The MODEL's own field: how many free moves have been taken (log 2). -/
  drawIx : Nat
deriving DecidableEq, Repr

/-- Why the block would stop with a fault. There is no such reason: no operation of the block stops it
(60_exceptions.md R230), and an illegal transaction completes like any other (R231). Safe: nothing is left out by it
(log 13). -/
inductive Fault where
deriving DecidableEq, Repr

/-- Why the model would give an instruction no meaning (log 13). -/
inductive Refusal where
  /-- Raised only by an arm of `exec` whose instruction has no meaning yet; no arm raises it. Safe: the model would
  stop where the hardware goes on. -/
  | notModelled (mnemonic : String)
deriving DecidableEq, Repr

/-- The state after power-on and a reset step, with the given arbitrary contents of WIDTH and START
(70_reset_and_hazards.md R250, R251). -/
def State.powerOn (width start : Vector Reg 4) : State where
  tcnt := 0
  irqPend := 0
  irqEn := 0
  busErr := false
  cap := {
    en := 0, fence := 0, width := width, start := start, center := #v[12160, 12160, 8960, 12160],
    prev := 0, riseSeen := 0, valid := 0 }
  pid := {
    iEn := true, dEn := true, iShift := 2, dShift := 4, sp := 0, pv := 0, kp := 0x0100, elim := 1023, eps := 0,
    coll := 0, integ := 0, lastErr := 0, out := 0, stat := 0 }
  syn := {
    en := false, outen := 0, wide := 0, slow := 0, low := 1776, div := 1, route := #v[0, 1, 2, 3, 4, 5],
    fstart := 0, divph := 0, level := 0, cmd := #v[0, 0, 0, 0, 0, 0],
    act := #v[8000, 8000, 8000, 8000, 8000, 8000], pend := false, startReq := false, active := 0,
    onAt := #v[0, 0, 0, 0, 0, 0], offAt := #v[8000, 8000, 8000, 8000, 8000, 8000] }
  busRdata := none
  schedule := []
  drawIx := 0

/-- The machine right after reset. WIDTH and START, which the spec leaves unspecified, hold 0 (DESIGN CHOICE, unsafe:
log 5 and log 6). -/
def State.reset : State := State.powerOn #v[0, 0, 0, 0] #v[0, 0, 0, 0]

end Sys2Proof.Machine
end

