-- ==== Sys2Proof/Machine/Flags.lean ====
section
/-! DEFINITION. The flags: the interrupt pending bits and the IRQ output, the STATUS view and the saturation flags of the
PID unit (spec 10_state.md R25, R26, R44, R55; 60_exceptions.md R233 to R236). -/

namespace Sys2Proof.Machine

/-- The interrupt sources of 60_exceptions.md R233. -/
inductive IrqSource where
  | fall (n : Chan)
  | rise (n : Chan)
  | frame
  | latch
  | err
deriving DecidableEq, Repr

/-- The source's bit of IRQ_PEND (10_state.md R26). -/
def irqBit (q : IrqSource) : Nat :=
  match q with
  | .fall n => n.val
  | .rise n => 4 + n.val
  | .frame => 8
  | .latch => 9
  | .err => 10

/-- A source sets its pending bit, whatever its enable holds (60_exceptions.md R234). -/
def raiseIrq (q : IrqSource) (s : State) : State :=
  { s with irqPend := setBit s.irqPend (irqBit q) true }

/-- The IRQ output: a level, high while an enabled source is pending (10_state.md R55, 60_exceptions.md R236). -/
def State.irq (s : State) : Bool := s.irqPend &&& s.irqEn != 0#11

/-- The OUT[5:0] pins (10_state.md R20, R51). -/
def State.outPins (s : State) : BitVec 6 := s.syn.level

/-- The STATUS view `{BUSERR, 0b000000, PEND, PREV, VALID}` (10_state.md R25, 40_global.md R103). -/
def statusWord (s : State) : Reg :=
  BitVec.ofBool s.busErr ++ 0#6 ++ BitVec.ofBool s.syn.pend ++ s.cap.prev ++ s.cap.valid

/-- `{osat, dsat, isat, esat}`, the flags of one PID step (10_state.md R44, 42_pid.md R150). -/
def pidFlags (osat dsat isat esat : Bool) : BitVec 4 :=
  BitVec.ofBool osat ++ BitVec.ofBool dsat ++ BitVec.ofBool isat ++ BitVec.ofBool esat

end Sys2Proof.Machine
end

