-- ==== Sys2Proof/Machine/Ops.lean ====
section
/-! DEFINITION. The operations the transactions share: the answers on BUS_RDATA, the illegal transaction and ResetState
(spec 20_memory.md R64, 60_exceptions.md R231, 70_reset_and_hazards.md R250). -/

namespace Sys2Proof.Machine

/-- A read transaction returns `v` on BUS_RDATA and has no side effect (30_encoding.md R82, 20_memory.md R64). -/
def reply (v : Reg) (s : State) : State := { s with busRdata := some v }

/-- A step that is no read returns nothing (30_encoding.md R80; log 7). -/
def silent (s : State) : State := { s with busRdata := none }

/-- IllegalTransaction(word): a read returns zero, BUSERR and IRQ_PEND.ERR are set, and no other state changes
(60_exceptions.md R231). It is the block's only error, and the block goes on (R230). -/
def illegalTransaction (word : BusWord) (s : State) : State :=
  let answered := if fieldW word then silent s else reply 0#16 s
  raiseIrq .err { answered with busErr := true }

/-- ResetState() of the capture unit: WIDTH and START are not changed (70_reset_and_hazards.md R250, R251). -/
def resetCap (c : Cap) : Cap := {
  c with
  en := 0, fence := 0, center := #v[12160, 12160, 8960, 12160], prev := 0, riseSeen := 0, valid := 0 }

/-- ResetState() of the PID unit: PID_CTRL = 0x0423, KP = 1.0, ELIM = 1023, all else 0 (70_reset_and_hazards.md R250). -/
def resetPid : Pid := {
  iEn := true, dEn := true, iShift := 2, dShift := 4, sp := 0, pv := 0, kp := 0x0100, elim := 1023, eps := 0,
  coll := 0, integ := 0, lastErr := 0, out := 0, stat := 0 }

/-- ResetState() of the synthesizer (70_reset_and_hazards.md R250). -/
def resetSyn : Syn := {
  en := false, outen := 0, wide := 0, slow := 0, low := 1776, div := 1, route := #v[0, 1, 2, 3, 4, 5],
  fstart := 0, divph := 0, level := 0, cmd := Vector.replicate 6 0#16, act := Vector.replicate 6 8000#16,
  pend := false, startReq := false, active := 0, onAt := Vector.replicate 6 0, offAt := Vector.replicate 6 8000 }

/-- ResetState(), the state change of a reset step and of CMD SOFT_RESET (70_reset_and_hazards.md R250, 40_global.md
R111). The environment's coming moves are no state of the block and stay (log 15). -/
def resetState (s : State) : State := {
  silent s with
  tcnt := 0, irqPend := 0, irqEn := 0, busErr := false, cap := resetCap s.cap, pid := resetPid, syn := resetSyn }

end Sys2Proof.Machine
end

