-- ==== Sys2Proof/Machine/Capture.lean ====
section
/-! DEFINITION. The pulse-capture unit: what a tick does in it, the normalization and its transactions (spec
41_capture.md). -/

namespace Sys2Proof.Machine

/-! Per-tick behaviour -/

/-- `rise`: the line was sampled low at the last tick and is high now (41_capture.md R120). -/
def risesOn (levels : BitVec 4) (n : Chan) (s : State) : Bool :=
  !s.cap.prev.getLsbD n.val && levels.getLsbD n.val

/-- `fall`: the line was sampled high at the last tick and is low now (41_capture.md R120). -/
def fallsOn (levels : BitVec 4) (n : Chan) (s : State) : Bool :=
  s.cap.prev.getLsbD n.val && !levels.getLsbD n.val

/-- RisingEdge(n) (41_capture.md R121). -/
def risingEdge (n : Chan) (s : State) : State :=
  raiseIrq (.rise n) {
    s with
    cap.start := s.cap.start.set n s.tcnt
    cap.riseSeen := setBit s.cap.riseSeen n.val true }

/-- Publish(n), but for the fence, which `captureTick` advances (41_capture.md R122, R124). RISE_SEEN[n] stays 1, as R122
says (log 12). -/
def publish (n : Chan) (s : State) : State :=
  raiseIrq (.fall n) {
    s with
    cap.width := s.cap.width.set n (s.tcnt - s.cap.start[n])
    cap.valid := setBit s.cap.valid n.val true }

/-- One round of the channel loop of 41_capture.md R120; the count is `pubs`. A fall with RISE_SEEN = 0 does nothing
(R123). -/
def captureChannel (levels : BitVec 4) (acc : State × Nat) (n : Chan) : State × Nat :=
  let s := acc.1
  let rise := risesOn levels n s
  let fall := fallsOn levels n s
  let s1 : State := { s with cap.prev := setBit s.cap.prev n.val (levels.getLsbD n.val) }
  if s1.cap.en.getLsbD n.val then
    let s2 := if rise then risingEdge n s1 else s1
    if fall && s2.cap.riseSeen.getLsbD n.val then (publish n s2, acc.2 + 1) else (s2, acc.2)
  else (s1, acc.2)

/-- The channel loop of 41_capture.md R120, with the number of publishes. -/
def captureChannels (levels : BitVec 4) (s : State) : State × Nat := allChans.foldl (captureChannel levels) (s, 0)

/-- CaptureTick(in): the four channels, then the fence advances by the number of publishes (41_capture.md R120, R124). -/
def captureTick (levels : BitVec 4) (s : State) : State :=
  let r := captureChannels levels s
  { r.1 with cap.fence := r.1.cap.fence + BitVec.ofNat 16 r.2 }

/-! Normalization -/

/-- Axis(n): the difference modulo 65536 read as signed, divided by 8 toward zero (41_capture.md R125). -/
def axisValue (width center : Reg) : Int := sdiv8 (width - center).toInt

/-! Transactions -/

/-- RD CAP_CTRL (41_capture.md R126). -/
def execRdCapCtrl (s : State) : Host.Outcome State Fault Refusal := .next (reply (zext16 s.cap.en) s)

/-- WR CAP_CTRL: a channel whose EN goes from 1 to 0 loses RISE_SEEN, so RISE_SEEN stays where EN was 0 or stays 1
(41_capture.md R127). -/
def execWrCapCtrl (v : Reg) (s : State) : Host.Outcome State Fault Refusal :=
  .next {
    silent s with
    cap.riseSeen := s.cap.riseSeen &&& (~~~s.cap.en ||| lowBits 4 v)
    cap.en := lowBits 4 v }

/-- RD CAP_FENCE (41_capture.md R128). -/
def execRdCapFence (s : State) : Host.Outcome State Fault Refusal := .next (reply s.cap.fence s)

/-- RD CAP_WIDTH[n] (41_capture.md R129). -/
def execRdCapWidth (n : BitVec 2) (s : State) : Host.Outcome State Fault Refusal :=
  .next (reply s.cap.width[indexChan n] s)

/-- RD CAP_START[n] (41_capture.md R130). -/
def execRdCapStart (n : BitVec 2) (s : State) : Host.Outcome State Fault Refusal :=
  .next (reply s.cap.start[indexChan n] s)

/-- RD CAP_AXIS[n]: computed at the read from WIDTH[n] and CENTER[n] (41_capture.md R131). -/
def execRdCapAxis (n : BitVec 2) (s : State) : Host.Outcome State Fault Refusal :=
  .next (reply (wrap16 (axisValue s.cap.width[indexChan n] s.cap.center[indexChan n])) s)

/-- RD CAP_CENTER[n] (41_capture.md R132). -/
def execRdCapCenter (n : BitVec 2) (s : State) : Host.Outcome State Fault Refusal :=
  .next (reply s.cap.center[indexChan n] s)

/-- WR CAP_CENTER[n] (41_capture.md R133). -/
def execWrCapCenter (n : BitVec 2) (v : Reg) (s : State) : Host.Outcome State Fault Refusal :=
  .next { silent s with cap.center := s.cap.center.set (indexChan n) v }

/-- CMD CAP_CLR: VALID and RISE_SEEN of every channel (41_capture.md R134). -/
def execCmdCapClr (s : State) : Host.Outcome State Fault Refusal :=
  .next { silent s with cap.valid := 0, cap.riseSeen := 0 }

end Sys2Proof.Machine
end

