-- ==== Sys2Proof/Machine/Global.lean ====
section
/-! DEFINITION. The global registers and the commands CLR_ERR and SOFT_RESET (spec 40_global.md). -/

namespace Sys2Proof.Machine

/-- RD ID: the constant 0x4B4B, "KK" (40_global.md R102). -/
def execRdId (s : State) : Host.Outcome State Fault Refusal := .next (reply 0x4B4B#16 s)

/-- RD STATUS (40_global.md R103). -/
def execRdStatus (s : State) : Host.Outcome State Fault Refusal := .next (reply (statusWord s) s)

/-- RD IRQ_PEND: a read does not clear (40_global.md R104). -/
def execRdIrqPend (s : State) : Host.Outcome State Fault Refusal := .next (reply (zext16 s.irqPend) s)

/-- WR IRQ_PEND: write one to clear (40_global.md R105). -/
def execWrIrqPend (v : Reg) (s : State) : Host.Outcome State Fault Refusal :=
  .next { silent s with irqPend := s.irqPend &&& ~~~lowBits 11 v }

/-- RD IRQ_EN (40_global.md R106). -/
def execRdIrqEn (s : State) : Host.Outcome State Fault Refusal := .next (reply (zext16 s.irqEn) s)

/-- WR IRQ_EN (40_global.md R107). -/
def execWrIrqEn (v : Reg) (s : State) : Host.Outcome State Fault Refusal :=
  .next { silent s with irqEn := lowBits 11 v }

/-- RD TCNT (40_global.md R108). -/
def execRdTcnt (s : State) : Host.Outcome State Fault Refusal := .next (reply s.tcnt s)

/-- CMD CLR_ERR: clears BUSERR and leaves IRQ_PEND.ERR (40_global.md R110). -/
def execCmdClrErr (s : State) : Host.Outcome State Fault Refusal := .next { silent s with busErr := false }

/-- CMD SOFT_RESET: exactly the state change of a reset step (40_global.md R111). A repeat with no step between changes
nothing more, where 20_memory.md R65 calls the command not idempotent: DESIGN CHOICE, R111 and R250 are followed (log 19). -/
def execCmdSoftReset (s : State) : Host.Outcome State Fault Refusal := .next (resetState s)

end Sys2Proof.Machine
end

