-- ==== Sys2Proof/Machine/Pid.lean ====
section
/-! DEFINITION. The fixed-point PID unit: one controller step on exact integers, and its transactions (spec 42_pid.md). -/

namespace Sys2Proof.Machine

/-! The controller step, value by value (42_pid.md R150) -/

/-- `e_raw <- SP - PV`. -/
def pidErrorRaw (p : Pid) : Int := p.sp.toInt - p.pv.toInt

/-- `e <- clamp(e_raw, -E, E)`. -/
def pidError (p : Pid) : Int := clamp (pidErrorRaw p) (-p.elim.toNat) p.elim.toNat

/-- `L <- max(0, asr(COLL, 3))` (10_state.md R42). -/
def pidLimit (p : Pid) : Int := max 0 (asr p.coll.toInt 3)

/-- `acc`: the integral with the error added outside the deadband. -/
def pidAccum (p : Pid) : Int :=
  if p.eps.toNat < (pidError p).natAbs then p.integ.toInt + pidError p else p.integ.toInt

/-- `inew <- clamp(acc, -L, L)`. -/
def pidIntegral (p : Pid) : Int := clamp (pidAccum p) (-pidLimit p) (pidLimit p)

/-- `iterm`, 0 with I_EN = 0. -/
def pidIterm (p : Pid) : Int := if p.iEn then asr (pidIntegral p) p.iShift.toNat else 0

/-- `d_raw <- LASTERR - e`. -/
def pidDeltaRaw (p : Pid) : Int := p.lastErr.toInt - pidError p

/-- `d <- clamp(d_raw, -L, L)`. -/
def pidDelta (p : Pid) : Int := clamp (pidDeltaRaw p) (-pidLimit p) (pidLimit p)

/-- `dterm`, 0 with D_EN = 0. -/
def pidDterm (p : Pid) : Int := if p.dEn then asr (pidDelta p) p.dShift.toNat else 0

/-- `p <- asr(KP * e, 8)`, with KP in unsigned 8.8 fixed point. -/
def pidPterm (p : Pid) : Int := asr (p.kp.toNat * pidError p) 8

/-- `sum <- p + iterm + dterm`. -/
def pidSum (p : Pid) : Int := pidPterm p + pidIterm p + pidDterm p

/-- `{osat, dsat, isat, esat}` (10_state.md R44). -/
def pidStepFlags (p : Pid) : BitVec 4 :=
  pidFlags (sat16 (pidSum p) != pidSum p) (p.dEn && pidDelta p != pidDeltaRaw p)
    (p.iEn && pidIntegral p != pidAccum p) (pidError p != pidErrorRaw p)

/-- PidStep(): with I_EN = 0 INT is held, LASTERR is written whatever D_EN holds (42_pid.md R150). -/
def pidStep (p : Pid) : Pid := {
  p with
  integ := if p.iEn then wrap16 (pidIntegral p) else p.integ
  out := wrap16 (sat16 (pidSum p))
  lastErr := wrap16 (pidError p)
  stat := pidStepFlags p }

/-! Transactions -/

/-- The PID_CTRL pattern `{0b0000, D_SHIFT, I_SHIFT, 0b00, D_EN, I_EN}` (42_pid.md R152). -/
def pidCtrlWord (p : Pid) : Reg :=
  0#4 ++ p.dShift ++ p.iShift ++ 0#2 ++ BitVec.ofBool p.dEn ++ BitVec.ofBool p.iEn

/-- RD PID_CTRL (42_pid.md R152). -/
def execRdPidCtrl (s : State) : Host.Outcome State Fault Refusal := .next (reply (pidCtrlWord s.pid) s)

/-- WR PID_CTRL (42_pid.md R153). -/
def execWrPidCtrl (v : Reg) (s : State) : Host.Outcome State Fault Refusal :=
  .next {
    silent s with
    pid.iEn := v.getLsbD 0
    pid.dEn := v.getLsbD 1
    pid.iShift := v.extractLsb' 4 4
    pid.dShift := v.extractLsb' 8 4 }

/-- RD PID_SP (42_pid.md R154). -/
def execRdPidSp (s : State) : Host.Outcome State Fault Refusal := .next (reply s.pid.sp s)

/-- WR PID_SP: the write does not step the controller (42_pid.md R155). -/
def execWrPidSp (v : Reg) (s : State) : Host.Outcome State Fault Refusal := .next { silent s with pid.sp := v }

/-- RD PID_PV (42_pid.md R156). -/
def execRdPidPv (s : State) : Host.Outcome State Fault Refusal := .next (reply s.pid.pv s)

/-- WR PID_PV (42_pid.md R157). -/
def execWrPidPv (v : Reg) (s : State) : Host.Outcome State Fault Refusal := .next { silent s with pid.pv := v }

/-- RD PID_KP (42_pid.md R158). -/
def execRdPidKp (s : State) : Host.Outcome State Fault Refusal := .next (reply s.pid.kp s)

/-- WR PID_KP (42_pid.md R159). -/
def execWrPidKp (v : Reg) (s : State) : Host.Outcome State Fault Refusal := .next { silent s with pid.kp := v }

/-- RD PID_ELIM (42_pid.md R160). -/
def execRdPidElim (s : State) : Host.Outcome State Fault Refusal := .next (reply (zext16 s.pid.elim) s)

/-- WR PID_ELIM: bit 15 is ignored (42_pid.md R161). -/
def execWrPidElim (v : Reg) (s : State) : Host.Outcome State Fault Refusal :=
  .next { silent s with pid.elim := lower15 v }

/-- RD PID_EPS (42_pid.md R162). -/
def execRdPidEps (s : State) : Host.Outcome State Fault Refusal := .next (reply (zext16 s.pid.eps) s)

/-- WR PID_EPS: bit 15 is ignored (42_pid.md R163). -/
def execWrPidEps (v : Reg) (s : State) : Host.Outcome State Fault Refusal :=
  .next { silent s with pid.eps := lower15 v }

/-- RD PID_COLL (42_pid.md R164). -/
def execRdPidColl (s : State) : Host.Outcome State Fault Refusal := .next (reply s.pid.coll s)

/-- WR PID_COLL: the new limit acts at the next step (42_pid.md R165). -/
def execWrPidColl (v : Reg) (s : State) : Host.Outcome State Fault Refusal := .next { silent s with pid.coll := v }

/-- RD PID_INT (42_pid.md R166). -/
def execRdPidInt (s : State) : Host.Outcome State Fault Refusal := .next (reply s.pid.integ s)

/-- RD PID_LASTERR (42_pid.md R167). -/
def execRdPidLasterr (s : State) : Host.Outcome State Fault Refusal := .next (reply s.pid.lastErr s)

/-- RD PID_OUT (42_pid.md R168). -/
def execRdPidOut (s : State) : Host.Outcome State Fault Refusal := .next (reply s.pid.out s)

/-- RD PID_STAT (42_pid.md R169). -/
def execRdPidStat (s : State) : Host.Outcome State Fault Refusal := .next (reply (zext16 s.pid.stat) s)

/-- CMD PID_STEP (42_pid.md R170). -/
def execCmdPidStep (s : State) : Host.Outcome State Fault Refusal := .next { silent s with pid := pidStep s.pid }

/-- CMD PID_CLR: INT, LASTERR, OUT and PID_STAT (42_pid.md R171). -/
def execCmdPidClr (s : State) : Host.Outcome State Fault Refusal :=
  .next { silent s with pid.integ := 0, pid.lastErr := 0, pid.out := 0, pid.stat := 0 }

end Sys2Proof.Machine
end

