-- ==== Sys2Proof/Machine/Synth.lean ====
section
/-! DEFINITION. The pulse synthesizer: targets, what a tick does in it, and its transactions (spec 43_synth.md). -/

namespace Sys2Proof.Machine

/-! Targets and frame timing -/

/-- Target(c, w), in ticks after the frame start (43_synth.md R180). -/
def pulseTarget (c : Reg) (wide : Bool) : Int := (clamp c.toInt 0 (if wide then 2000 else 1000) + 1000) * 8

/-- FRAME_LEN = 16000 + LOW (43_synth.md R181). -/
def frameLen (y : Syn) : Nat := 16000 + y.low.toNat

/-- `elapsed = wrap16(TCNT - FSTART)` (43_synth.md R181). -/
def elapsed (s : State) : Nat := (s.tcnt - s.syn.fstart).toNat

/-! Per-tick behaviour -/

/-- The δon of a polled output: 4 or 5 (00_scope.md R8). -/
def drawOn (d : Draws) (o : Slot) : Nat := if o = 4 then d.on4 else d.on5

/-- The δoff of a polled output: 4 or 5 (00_scope.md R8). -/
def drawOff (d : Draws) (o : Slot) : Nat := if o = 4 then d.off4 else d.off5

/-- The divider phase of the frame that starts (43_synth.md R183). -/
def nextPhase (first : Bool) (y : Syn) : BitVec 8 :=
  if first then 0#8 else if y.div.toNat ≤ y.divph.toNat + 1 then 0#8 else y.divph + 1#8

/-- The targets a commit latches: of the staged command each output is routed to (43_synth.md R183). -/
def latchedTargets (y : Syn) : Vector Reg 6 :=
  Vector.ofFn fun o : Slot => wrap16 (pulseTarget y.cmd[y.route[o]] (y.wide.getLsbD o.val))

/-- The first lines of FrameStart: START_REQ, FSTART and DIVPH (43_synth.md R183). -/
def openFrame (now : Reg) (y : Syn) : Syn :=
  { y with startReq := false, fstart := now, divph := nextPhase y.startReq y }

/-- The latch of a pending commit at a frame start (43_synth.md R183). -/
def latchCommit (y : Syn) : Syn :=
  if y.pend then { y with act := latchedTargets y, pend := false } else y

/-- The interrupts of a frame start: LATCH if it latched a commit, and FRAME (43_synth.md R183). -/
def frameIrqs (latched : Bool) (s : State) : State :=
  raiseIrq .frame (if latched then raiseIrq .latch s else s)

/-- Output o gets a pulse in the frame that starts (43_synth.md R183, R186). -/
def pulsesNow (y : Syn) (o : Slot) : Bool := y.outen.getLsbD o.val && (!y.slow.getLsbD o.val || y.divph == 0#8)

/-- One round of FrameStart's output loop: a compare output goes high at once, a polled one after its δon; an output
that gets no pulse is held or disabled (43_synth.md R183 to R187). -/
def openOutput (d : Draws) (y : Syn) (o : Slot) : Syn :=
  if pulsesNow y o then
    if o.val ≤ 3 then {
      y with
      active := setBit y.active o.val true
      onAt := y.onAt.set o 0
      offAt := y.offAt.set o y.act[o].toNat
      level := setBit y.level o.val true }
    else {
      y with
      active := setBit y.active o.val true
      onAt := y.onAt.set o (drawOn d o)
      offAt := y.offAt.set o (y.act[o].toNat + drawOff d o)
      level := if drawOn d o = 0 then setBit y.level o.val true else y.level }
  else { y with active := setBit y.active o.val false }

/-- FrameStart's output loop (43_synth.md R183). -/
def openOutputs (d : Draws) (y : Syn) : Syn := allSlots.foldl (openOutput d) y

/-- FrameStart(draws) (43_synth.md R183). -/
def frameStart (d : Draws) (s : State) : State :=
  { frameIrqs s.syn.pend s with syn := openOutputs d (latchCommit (openFrame s.tcnt s.syn)) }

/-- One round of SynthTick's output loop inside a frame, on LEVEL: the turn-on of a polled output, then the turn-off
(43_synth.md R182, R184, R185). -/
def runOutput (el : Nat) (y : Syn) (level : BitVec 6) (o : Slot) : BitVec 6 :=
  if y.active.getLsbD o.val then
    let on := if el = y.onAt[o] then setBit level o.val true else level
    if el = y.offAt[o] then setBit on o.val false else on
  else level

/-- SynthTick's output loop, on LEVEL (43_synth.md R182). -/
def runOutputs (el : Nat) (y : Syn) : BitVec 6 := allSlots.foldl (runOutput el y) y.level

/-- SynthTick(draws) (43_synth.md R182). -/
def synthTick (d : Draws) (s : State) : State :=
  if s.syn.en then
    if s.syn.startReq || decide (frameLen s.syn ≤ elapsed s) then frameStart d s
    else { s with syn.level := runOutputs (elapsed s) s.syn }
  else s

/-! Transactions -/

/-- WR SYN_CTRL: enabling asks for a frame at the next tick, disabling drives every output low (43_synth.md R189). -/
def execWrSynCtrl (v : Reg) (s : State) : Host.Outcome State Fault Refusal :=
  let en := v.getLsbD 0
  let requested := if !s.syn.en && en then true else if s.syn.en && !en then false else s.syn.startReq
  .next {
    silent s with
    syn.startReq := requested
    syn.level := if s.syn.en && !en then 0 else s.syn.level
    syn.active := if s.syn.en && !en then 0 else s.syn.active
    syn.en := en }

/-- RD SYN_CTRL (43_synth.md R190). -/
def execRdSynCtrl (s : State) : Host.Outcome State Fault Refusal := .next (reply (zext16 (BitVec.ofBool s.syn.en)) s)

/-- WR SYN_OUTEN: a disabled output goes low and inactive at once (43_synth.md R191). -/
def execWrSynOuten (v : Reg) (s : State) : Host.Outcome State Fault Refusal :=
  .next {
    silent s with
    syn.level := s.syn.level &&& lowBits 6 v
    syn.active := s.syn.active &&& lowBits 6 v
    syn.outen := lowBits 6 v }

/-- RD SYN_OUTEN (43_synth.md R192). -/
def execRdSynOuten (s : State) : Host.Outcome State Fault Refusal := .next (reply (zext16 s.syn.outen) s)

/-- WR SYN_WIDE: the new clamp acts from the next latch (43_synth.md R193). -/
def execWrSynWide (v : Reg) (s : State) : Host.Outcome State Fault Refusal :=
  .next { silent s with syn.wide := lowBits 6 v }

/-- RD SYN_WIDE (43_synth.md R194). -/
def execRdSynWide (s : State) : Host.Outcome State Fault Refusal := .next (reply (zext16 s.syn.wide) s)

/-- WR SYN_SLOW: it acts from the next frame start (43_synth.md R195). -/
def execWrSynSlow (v : Reg) (s : State) : Host.Outcome State Fault Refusal :=
  .next { silent s with syn.slow := lowBits 6 v }

/-- RD SYN_SLOW (43_synth.md R196). -/
def execRdSynSlow (s : State) : Host.Outcome State Fault Refusal := .next (reply (zext16 s.syn.slow) s)

/-- WR SYN_LOW (43_synth.md R197). -/
def execWrSynLow (v : Reg) (s : State) : Host.Outcome State Fault Refusal :=
  .next { silent s with syn.low := warlLow v }

/-- RD SYN_LOW (43_synth.md R198). -/
def execRdSynLow (s : State) : Host.Outcome State Fault Refusal := .next (reply s.syn.low s)

/-- WR SYN_DIV (43_synth.md R199). DIVPH keeps its value until the next frame start (R183, R199), also where DIV becomes 1
and R206 says that DIVPH always reads 0: DESIGN CHOICE, R183 and R199 are followed (log 20). -/
def execWrSynDiv (v : Reg) (s : State) : Host.Outcome State Fault Refusal :=
  .next { silent s with syn.div := warlDiv v }

/-- RD SYN_DIV (43_synth.md R200). -/
def execRdSynDiv (s : State) : Host.Outcome State Fault Refusal := .next (reply (zext16 s.syn.div) s)

/-- WR SYN_ROUTE0: the four nibbles of `v`, each a slot number; a word with a nibble above 5 is illegal and changes no
route (43_synth.md R201; log 10). -/
def execWrSynRoute0 (v : Reg) (s : State) : Host.Outcome State Fault Refusal :=
  match nibbleSlot (v.extractLsb' 0 4), nibbleSlot (v.extractLsb' 4 4), nibbleSlot (v.extractLsb' 8 4),
      nibbleSlot (v.extractLsb' 12 4) with
  | some r0, some r1, some r2, some r3 =>
    .next { silent s with syn.route := (((s.syn.route.set 0 r0).set 1 r1).set 2 r2).set 3 r3 }
  | _, _, _, _ => .next (illegalTransaction (encode (.wrSynRoute0 v)) s)

/-- RD SYN_ROUTE0 (43_synth.md R202). -/
def execRdSynRoute0 (s : State) : Host.Outcome State Fault Refusal :=
  .next (reply (slotNibble s.syn.route[3] ++ slotNibble s.syn.route[2] ++ slotNibble s.syn.route[1] ++
    slotNibble s.syn.route[0]) s)

/-- WR SYN_ROUTE1: bits 15:8 are ignored (43_synth.md R203; log 10). -/
def execWrSynRoute1 (v : Reg) (s : State) : Host.Outcome State Fault Refusal :=
  match nibbleSlot (v.extractLsb' 0 4), nibbleSlot (v.extractLsb' 4 4) with
  | some r4, some r5 => .next { silent s with syn.route := (s.syn.route.set 4 r4).set 5 r5 }
  | _, _ => .next (illegalTransaction (encode (.wrSynRoute1 v)) s)

/-- RD SYN_ROUTE1 (43_synth.md R204). -/
def execRdSynRoute1 (s : State) : Host.Outcome State Fault Refusal :=
  .next (reply (0#8 ++ slotNibble s.syn.route[5] ++ slotNibble s.syn.route[4]) s)

/-- RD SYN_FSTART (43_synth.md R205). -/
def execRdSynFstart (s : State) : Host.Outcome State Fault Refusal := .next (reply s.syn.fstart s)

/-- RD SYN_DIVPH: the held phase, which may be above 0 with DIV = 1 until the next frame start (43_synth.md R206; log 20). -/
def execRdSynDivph (s : State) : Host.Outcome State Fault Refusal := .next (reply (zext16 s.syn.divph) s)

/-- RD SYN_LEVEL (43_synth.md R207). -/
def execRdSynLevel (s : State) : Host.Outcome State Fault Refusal := .next (reply (zext16 s.syn.level) s)

/-- WR SYN_CMD[k]: stored as written, no output changes (43_synth.md R208; an index 6 or 7 is no row, log 10). -/
def execWrSynCmd (k : BitVec 3) (v : Reg) (s : State) : Host.Outcome State Fault Refusal :=
  match indexSlot k with
  | some i => .next { silent s with syn.cmd := s.syn.cmd.set i v }
  | none => .next (illegalTransaction (encode (.wrSynCmd k v)) s)

/-- RD SYN_CMD[k]: the staged value (43_synth.md R209; an index 6 or 7 is no row, log 10). -/
def execRdSynCmd (k : BitVec 3) (s : State) : Host.Outcome State Fault Refusal :=
  match indexSlot k with
  | some i => .next (reply s.syn.cmd[i] s)
  | none => .next (illegalTransaction (encode (.rdSynCmd k)) s)

/-- RD SYN_ACT[o] (43_synth.md R212; an index 6 or 7 is no row, log 10). -/
def execRdSynAct (o : BitVec 3) (s : State) : Host.Outcome State Fault Refusal :=
  match indexSlot o with
  | some i => .next (reply s.syn.act[i] s)
  | none => .next (illegalTransaction (encode (.rdSynAct o)) s)

/-- CMD SYN_COMMIT: the latch happens at the next frame start (43_synth.md R210). -/
def execCmdSynCommit (s : State) : Host.Outcome State Fault Refusal := .next { silent s with syn.pend := true }

/-- CMD SYN_CANCEL (43_synth.md R211). -/
def execCmdSynCancel (s : State) : Host.Outcome State Fault Refusal := .next { silent s with syn.pend := false }

end Sys2Proof.Machine
end

