-- ==== Sys2Proof/Machine/Dispatch.lean ====
section
/-! DEFINITION. The dispatch of a transaction to its meaning. -/

namespace Sys2Proof.Machine

/-- The effect of one legal bus transaction (30_encoding.md R81). -/
def exec (i : Instr) (s : State) : Host.Outcome State Fault Refusal :=
  match i with
  | .rdId => Sys2Proof.Machine.execRdId s
  | .rdStatus => Sys2Proof.Machine.execRdStatus s
  | .rdIrqPend => Sys2Proof.Machine.execRdIrqPend s
  | .wrIrqPend v => Sys2Proof.Machine.execWrIrqPend v s
  | .rdIrqEn => Sys2Proof.Machine.execRdIrqEn s
  | .wrIrqEn v => Sys2Proof.Machine.execWrIrqEn v s
  | .rdTcnt => Sys2Proof.Machine.execRdTcnt s
  | .cmdClrErr => Sys2Proof.Machine.execCmdClrErr s
  | .cmdCapClr => Sys2Proof.Machine.execCmdCapClr s
  | .cmdPidStep => Sys2Proof.Machine.execCmdPidStep s
  | .cmdPidClr => Sys2Proof.Machine.execCmdPidClr s
  | .cmdSynCommit => Sys2Proof.Machine.execCmdSynCommit s
  | .cmdSynCancel => Sys2Proof.Machine.execCmdSynCancel s
  | .cmdSoftReset => Sys2Proof.Machine.execCmdSoftReset s
  | .rdCapCtrl => Sys2Proof.Machine.execRdCapCtrl s
  | .wrCapCtrl v => Sys2Proof.Machine.execWrCapCtrl v s
  | .rdCapFence => Sys2Proof.Machine.execRdCapFence s
  | .rdCapWidth n => Sys2Proof.Machine.execRdCapWidth n s
  | .rdCapStart n => Sys2Proof.Machine.execRdCapStart n s
  | .rdCapAxis n => Sys2Proof.Machine.execRdCapAxis n s
  | .rdCapCenter n => Sys2Proof.Machine.execRdCapCenter n s
  | .wrCapCenter n v => Sys2Proof.Machine.execWrCapCenter n v s
  | .rdPidCtrl => Sys2Proof.Machine.execRdPidCtrl s
  | .wrPidCtrl v => Sys2Proof.Machine.execWrPidCtrl v s
  | .rdPidSp => Sys2Proof.Machine.execRdPidSp s
  | .wrPidSp v => Sys2Proof.Machine.execWrPidSp v s
  | .rdPidPv => Sys2Proof.Machine.execRdPidPv s
  | .wrPidPv v => Sys2Proof.Machine.execWrPidPv v s
  | .rdPidKp => Sys2Proof.Machine.execRdPidKp s
  | .wrPidKp v => Sys2Proof.Machine.execWrPidKp v s
  | .rdPidElim => Sys2Proof.Machine.execRdPidElim s
  | .wrPidElim v => Sys2Proof.Machine.execWrPidElim v s
  | .rdPidEps => Sys2Proof.Machine.execRdPidEps s
  | .wrPidEps v => Sys2Proof.Machine.execWrPidEps v s
  | .rdPidColl => Sys2Proof.Machine.execRdPidColl s
  | .wrPidColl v => Sys2Proof.Machine.execWrPidColl v s
  | .rdPidInt => Sys2Proof.Machine.execRdPidInt s
  | .rdPidLasterr => Sys2Proof.Machine.execRdPidLasterr s
  | .rdPidOut => Sys2Proof.Machine.execRdPidOut s
  | .rdPidStat => Sys2Proof.Machine.execRdPidStat s
  | .rdSynCtrl => Sys2Proof.Machine.execRdSynCtrl s
  | .wrSynCtrl v => Sys2Proof.Machine.execWrSynCtrl v s
  | .rdSynOuten => Sys2Proof.Machine.execRdSynOuten s
  | .wrSynOuten v => Sys2Proof.Machine.execWrSynOuten v s
  | .rdSynWide => Sys2Proof.Machine.execRdSynWide s
  | .wrSynWide v => Sys2Proof.Machine.execWrSynWide v s
  | .rdSynSlow => Sys2Proof.Machine.execRdSynSlow s
  | .wrSynSlow v => Sys2Proof.Machine.execWrSynSlow v s
  | .rdSynLow => Sys2Proof.Machine.execRdSynLow s
  | .wrSynLow v => Sys2Proof.Machine.execWrSynLow v s
  | .rdSynDiv => Sys2Proof.Machine.execRdSynDiv s
  | .wrSynDiv v => Sys2Proof.Machine.execWrSynDiv v s
  | .rdSynRoute0 => Sys2Proof.Machine.execRdSynRoute0 s
  | .wrSynRoute0 v => Sys2Proof.Machine.execWrSynRoute0 v s
  | .rdSynRoute1 => Sys2Proof.Machine.execRdSynRoute1 s
  | .wrSynRoute1 v => Sys2Proof.Machine.execWrSynRoute1 v s
  | .rdSynFstart => Sys2Proof.Machine.execRdSynFstart s
  | .rdSynDivph => Sys2Proof.Machine.execRdSynDivph s
  | .rdSynLevel => Sys2Proof.Machine.execRdSynLevel s
  | .rdSynCmd k => Sys2Proof.Machine.execRdSynCmd k s
  | .wrSynCmd k v => Sys2Proof.Machine.execWrSynCmd k v s
  | .rdSynAct o => Sys2Proof.Machine.execRdSynAct o s

end Sys2Proof.Machine
end

