-- ==== Sys2Proof/Machine/Timebase.lean ====
section
/-! DEFINITION. The tick step (spec 40_global.md R100, R101; 00_scope.md R8). -/

namespace Sys2Proof.Machine

/-- Tick(in, draws): TCNT first, then the capture unit, then the synthesizer (40_global.md R100). A tick is no read
transaction, so BUS_RDATA carries no specified value after it (log 7). -/
def tick (levels : BitVec 4) (d : Draws) (s : State) : State :=
  synthTick d (captureTick levels { silent s with tcnt := s.tcnt + 1#16 })

/-- The delays a tick may draw: each in [0, J] (00_scope.md R8; log 4). -/
def boundedDraws (d : Draws) : Draws where
  on4 := min d.on4 Config.jitterTicks
  off4 := min d.off4 Config.jitterTicks
  on5 := min d.on5 Config.jitterTicks
  off5 := min d.off5 Config.jitterTicks

end Sys2Proof.Machine
end

