-- ==== Sys2Proof/Machine/Bus.lean ====
section
/-! DEFINITION. The step of each agent (spec 00_scope.md R7, 30_encoding.md R81, 60_exceptions.md R231). -/

namespace Sys2Proof.Machine

/-- The host's step: the word selects a row, or the transaction is illegal (30_encoding.md R81, 60_exceptions.md R231). -/
def hostTransaction (word : BusWord) (s : State) : Host.Outcome State Fault Refusal :=
  match decode word with
  | .ok i => exec i s
  | .error _ => .next (illegalTransaction word s)

/-- One atomic step of one agent (00_scope.md R7). -/
def perform (m : Stimulus) (s : State) : Host.Outcome State Fault Refusal :=
  match m with
  | .host word => hostTransaction word s
  | .tick levels d => .next (tick levels (boundedDraws d) s)
  | .reset => .next (resetState s)

/-- Places a host transaction in front of the coming moves. -/
def placeWord (word : BusWord) (s : State) : State := { s with schedule := .host word :: s.schedule }

end Sys2Proof.Machine
end

