-- ==== Sys2Proof/Machine/Step.lean ====
section
/-! DEFINITION. One step of the whole machine: the next scheduled move of an agent, or a free one (spec 00_scope.md R7). -/

namespace Sys2Proof.Machine

/-- The next atomic step of the run (00_scope.md R7). The schedule gives it; with an empty schedule it is the free
value `Config.freeStimulus` at `drawIx` (log 1, log 2). -/
def step (s : State) : Host.Outcome State Fault Refusal :=
  match s.schedule with
  | m :: rest => perform m { s with schedule := rest }
  | [] => perform (Config.freeStimulus s.drawIx) { s with drawIx := s.drawIx + 1 }

/-- The state whose next step is the host's transaction with the table's word `w` of `nbits` bits (log 1). -/
def State.withFetchWord (s : State) (nbits w : Nat) : State := placeWord (BitVec.ofNat 32 (w % 2 ^ nbits)) s

end Sys2Proof.Machine
end

