-- ==== Sys2Proof/Safety.lean ====
section
/-! DEFINITION. What the statements speak of: the states the block can be in, runs of the agents, and the rows of the
opcode map as words (spec 10_state.md, 43_synth.md, 20_memory.md R70). -/

namespace Sys2Proof.Machine

/-! The invariant of the block -/

/-- The registers with a legal range hold a value in it: LOW and DIV (10_state.md R47, R48), DIVPH (R50), ACT (R53),
INT (42_pid.md R166) and LASTERR, a clamped error (R150). -/
def State.RegistersLegal (s : State) : Prop :=
  s.syn.low.toNat ≤ 49535 ∧ s.syn.div ≠ 0#8 ∧ s.syn.divph.toNat ≤ 254 ∧
    (∀ o : Slot, 8000 ≤ s.syn.act[o].toNat ∧ s.syn.act[o].toNat ≤ 24000) ∧
    -4095 ≤ s.pid.integ.toInt ∧ s.pid.integ.toInt ≤ 4095 ∧
    -32767 ≤ s.pid.lastErr.toInt ∧ s.pid.lastErr.toInt ≤ 32767

/-- A channel that remembers a rising edge is enabled: disabling forgets it (10_state.md R37, 41_capture.md R127). -/
def State.EdgesTracked (s : State) : Prop :=
  ∀ n : Chan, s.cap.riseSeen.getLsbD n.val = true → s.cap.en.getLsbD n.val = true

/-- Outputs are low and idle while the sequencer or the output is disabled, and until a requested first frame starts
(43_synth.md R187, R189; 10_state.md R46). -/
def State.DisabledLow (s : State) : Prop :=
  (s.syn.en = false → s.syn.level = 0#6 ∧ s.syn.active = 0#6 ∧ s.syn.startReq = false) ∧
    (s.syn.startReq = true → s.syn.level = 0#6 ∧ s.syn.active = 0#6) ∧
    ∀ o : Slot, s.syn.outen.getLsbD o.val = false →
      s.syn.level.getLsbD o.val = false ∧ s.syn.active.getLsbD o.val = false

/-- A running frame has not outlived the counter: the frame timing cannot alias (70_reset_and_hazards.md R265). -/
def State.FrameRuns (s : State) : Prop :=
  s.syn.en = true → s.syn.startReq = false → elapsed s < 65535

/-- The transition ticks are in the ranges of 10_state.md R54. -/
def State.TransitionsLegal (s : State) : Prop :=
  ∀ o : Slot, s.syn.onAt[o] ≤ Config.jitterTicks ∧ 8000 ≤ s.syn.offAt[o] ∧
    s.syn.offAt[o] ≤ 24000 + Config.jitterTicks

/-- On an active output the transition ticks are ACT and the delays allow, exactly ACT on a compare output, and from the
turn-on tick on the level is high exactly before the turn-off tick (43_synth.md R184, R185). -/
def State.PulsesTimed (s : State) : Prop :=
  ∀ o : Slot, s.syn.active.getLsbD o.val = true →
    s.syn.act[o].toNat ≤ s.syn.offAt[o] ∧ s.syn.offAt[o] ≤ s.syn.act[o].toNat + Config.jitterTicks ∧
      (o.val ≤ 3 → s.syn.onAt[o] = 0 ∧ s.syn.offAt[o] = s.syn.act[o].toNat) ∧
      (s.syn.onAt[o] ≤ elapsed s → s.syn.level.getLsbD o.val = decide (elapsed s < s.syn.offAt[o]))

/-- The invariant of the block. -/
def State.Inv (s : State) : Prop :=
  s.RegistersLegal ∧ s.EdgesTracked ∧ s.DisabledLow ∧ s.FrameRuns ∧ s.TransitionsLegal ∧ s.PulsesTimed

/-! Runs -/

/-- The state after a list of moves, if none of them stops. -/
def runMoves (l : List Stimulus) (s : State) : Option State :=
  match l with
  | [] => some s
  | m :: rest =>
    match perform m s with
    | .next t => runMoves rest t
    | .fault _ => none
    | .refused _ => none

/-- The state after a list of ticks, each with its line levels and its delays. -/
def runTicks (l : List (BitVec 4 × Draws)) (s : State) : State := l.foldl (fun u x => tick x.1 (boundedDraws x.2) u) s

/-- The channels that publish a width at a tick with these line levels: enabled, with a recorded rising edge, and
sampled low after high (41_capture.md R120, R122, R123). -/
def publishingChannels (levels : BitVec 4) (s : State) : List Chan :=
  allChans.filter fun n =>
    s.cap.en.getLsbD n.val && s.cap.riseSeen.getLsbD n.val && s.cap.prev.getLsbD n.val && !levels.getLsbD n.val

/-- The number of widths published over a list of moves. -/
def publishCount (l : List Stimulus) (s : State) : Nat :=
  match l with
  | [] => 0
  | m :: rest =>
    (match m with
      | .tick levels _ => (publishingChannels levels s).length
      | .host _ => 0
      | .reset => 0) +
    (match perform m s with
      | .next t => publishCount rest t
      | .fault _ => 0
      | .refused _ => 0)

/-- A move that performs ResetState(): a reset step, or the word of CMD SOFT_RESET (70_reset_and_hazards.md R250). -/
def movesReset (m : Stimulus) : Bool :=
  match m with
  | .host w => w == 0x800500A5#32
  | .tick _ _ => false
  | .reset => true

/-! Rows of the opcode map -/

/-- Every word with the upper half `row`, whatever its DATA, is the read `i`, and the read completes: it answers the
state with `value` on BUS_RDATA and nothing else changed (30_encoding.md R82, 20_memory.md R64). -/
def ReadsAs (row : BitVec 16) (i : Instr) (value : State → Reg) : Prop :=
  (∀ data : Reg, decode (row ++ data) = .ok i) ∧
    ∀ s : State, exec i s = .next { s with busRdata := some (value s) }

end Sys2Proof.Machine
end

