-- ==== Sys2Proof/Certificates/Slice0/Obligations.lean ====
section
/-! DEFINITION. The statements about KK-PCS. -/

open Sys2Proof Sys2Proof.Machine

/-! ### The words -/

/-- 30_encoding.md R80, R83, R85, R89: the encoder and the decoder agree on every well-formed transaction, with every
operand at every value its encoding admits. -/
def Obligations.DecodeOfEncodeIsTheInstruction : Prop :=
  ∀ i : Instr, i.wellFormed = true → decode (encode i) = .ok i

/-- 30_encoding.md R80, R82, R86: a decoded word is the word of its instruction, bit for bit on a write; on a read but
for DATA, which is ignored. -/
def Obligations.EncodeOfDecodeIsTheWord : Prop :=
  ∀ (t : BusWord) (i : Instr), decode t = .ok i →
    i.wellFormed = true ∧ encode i = if t.getLsbD 31 then t else t &&& 0xFFFF0000#32

/-- 30_encoding.md R81, R89: the 62 rows of the opcode map exclude each other; a word decodes exactly if a row selects
it, and then to that row's instruction. -/
def Obligations.DecodeFollowsTheOpcodeMap : Prop :=
  opcodeMap.length = 62 ∧
    ∀ t : BusWord,
      opcodeMap.Pairwise (fun r q => ¬ (r.selects t = true ∧ q.selects t = true)) ∧
        ((∃ i, decode t = .ok i) ↔ ∃ r ∈ opcodeMap, r.selects t = true) ∧
        ∀ i, decode t = .ok i → ∃ r ∈ opcodeMap, r.selects t = true ∧ r.selects (encode i) = true

/-- 30_encoding.md R87 with 20_memory.md R66: a word is illegal exactly when one of the seven items holds. -/
def Obligations.IllegalWordsAreTheListedOnes : Prop :=
  ∀ t : BusWord,
    let w := t.getLsbD 31
    let rsv := t.toNat / 2 ^ 24 % 2 ^ 7
    let addr := t.toNat / 2 ^ 16 % 2 ^ 8
    let data := t.toNat % 2 ^ 16
    (∃ e, decode t = .error e) ↔
      rsv ≠ 0 ∨
      ((0x06 ≤ addr ∧ addr ≤ 0x0F) ∨ (0x12 ≤ addr ∧ addr ≤ 0x13) ∨ (0x24 ≤ addr ∧ addr ≤ 0x2F) ∨
        (0x3B ≤ addr ∧ addr ≤ 0x3F) ∨ (0x4B ≤ addr ∧ addr ≤ 0x4F) ∨ (0x56 ≤ addr ∧ addr ≤ 0x57) ∨ 0x5E ≤ addr) ∨
      (w = true ∧ (addr = 0x00 ∨ addr = 0x01 ∨ addr = 0x04 ∨ addr = 0x11 ∨ (0x14 ≤ addr ∧ addr ≤ 0x1F) ∨
        (0x37 ≤ addr ∧ addr ≤ 0x3A) ∨ (0x48 ≤ addr ∧ addr ≤ 0x4A) ∨ (0x58 ≤ addr ∧ addr ≤ 0x5D))) ∨
      (w = false ∧ addr = 0x05) ∨
      (w = true ∧ addr = 0x05 ∧ data ∉ [0x0001, 0x0002, 0x0010, 0x0011, 0x0020, 0x0021, 0x00A5]) ∨
      (w = true ∧ addr = 0x46 ∧ (5 < data % 16 ∨ 5 < data / 16 % 16 ∨ 5 < data / 256 % 16 ∨ 5 < data / 4096)) ∨
      (w = true ∧ addr = 0x47 ∧ (5 < data % 16 ∨ 5 < data / 16 % 16))

/-- 30_encoding.md R80, R83, R85, R89: words written out from the encodings, one or two of each family. -/
def Obligations.WordsOfTheSpecDecode : Prop :=
  decode 0x00000000#32 = .ok .rdId ∧ decode 0x80020033#32 = .ok (.wrIrqPend 0x0033) ∧
    decode 0x80050001#32 = .ok .cmdClrErr ∧ decode 0x800500A5#32 = .ok .cmdSoftReset ∧
    decode 0x001D0000#32 = .ok (.rdCapAxis 1) ∧ decode 0x80232EE0#32 = .ok (.wrCapCenter 3 12000) ∧
    decode 0x80310032#32 = .ok (.wrPidSp 50) ∧ decode 0x80050010#32 = .ok .cmdPidStep ∧
    decode 0x805403E8#32 = .ok (.wrSynCmd 4 1000) ∧ decode 0x005C0000#32 = .ok (.rdSynAct 4) ∧
    decode 0x80464210#32 = .ok (.wrSynRoute0 0x4210) ∧ decode 0x80466210#32 = .error .route0Nibble

/-! ### The step -/

/-- 30_encoding.md R81, 00_scope.md R7: when the host's word is next and decodes, the step is the instruction at that
state, the word taken off the schedule (the schedule is the model's, log 1); a word placed by `withFetchWord` is next. -/
def Obligations.StepRunsTheDecodedTransaction : Prop :=
  (∀ (s : State) (t : BusWord) (rest : List Stimulus) (i : Instr),
      s.schedule = .host t :: rest → decode t = .ok i → step s = exec i { s with schedule := rest }) ∧
    ∀ (s : State) (nbits w : Nat) (i : Instr), decodeTableWord nbits w = some i →
      step (s.withFetchWord nbits w) = exec i s

/-- 00_scope.md R7, 40_global.md R100, 70_reset_and_hazards.md R250: the steps of the timebase and of the reset source.
With no move scheduled the next one is a free value, the model's choice of log 2. That BUS_RDATA holds no value after a
tick is the model's reading of 93_implementation_defined.md S8 (log 7). -/
def Obligations.StepTakesTheMovesOfTheAgents : Prop :=
  (∀ (s : State) (levels : BitVec 4) (d : Draws) (rest : List Stimulus), s.schedule = .tick levels d :: rest →
      step s = .next (synthTick (boundedDraws d) (captureTick levels
        { s with schedule := rest, busRdata := none, tcnt := s.tcnt + 1 }))) ∧
    (∀ (s : State) (rest : List Stimulus), s.schedule = .reset :: rest →
      step s = .next (resetState { s with schedule := rest })) ∧
    ∀ s : State, s.schedule = [] →
      step s = perform (Config.freeStimulus s.drawIx) { s with drawIx := s.drawIx + 1 }

/-- 60_exceptions.md R231: an illegal transaction answers 0 to a read, sets BUSERR and IRQ_PEND.ERR, and changes no
other state; the block goes on. -/
def Obligations.IllegalTransactionOnlyFlagsTheError : Prop :=
  ∀ (s : State) (t : BusWord) (rest : List Stimulus) (e : Illegal), s.schedule = .host t :: rest →
    decode t = .error e →
    ∃ pend : BitVec 11,
      step s = .next {
        s with
        schedule := rest, busErr := true, irqPend := pend
        busRdata := if t.getLsbD 31 then none else some 0 } ∧
      ∀ b : Nat, pend.getLsbD b = (s.irqPend.getLsbD b || decide (b = 10))

/-- 30_encoding.md R81, R87: a transaction and its word do the same, an ill-formed term and its illegal word too (the
model's choice for such terms, log 10). -/
def Obligations.TransactionIsWhatItsWordDoes : Prop :=
  ∀ (i : Instr) (s : State), perform (.host (encode i)) s = exec i s

/-- 60_exceptions.md R230: no operation stops the block. -/
def Obligations.NothingStopsTheBlock : Prop :=
  ∀ s : State, ∃ t : State, step s = .next t

/-! ### Reads -/

/-- 40_global.md R102, R103, R104, R106, R108. -/
def Obligations.GlobalReadsReturnTheirRegisters : Prop :=
  ReadsAs 0x0000 .rdId (fun _ => 0x4B4B) ∧
    ReadsAs 0x0001 .rdStatus (fun s => BitVec.ofNat 16 (
      (if s.busErr then 2 ^ 15 else 0) + (if s.syn.pend then 2 ^ 8 else 0) + s.cap.prev.toNat * 2 ^ 4 +
        s.cap.valid.toNat)) ∧
    ReadsAs 0x0002 .rdIrqPend (fun s => BitVec.ofNat 16 s.irqPend.toNat) ∧
    ReadsAs 0x0003 .rdIrqEn (fun s => BitVec.ofNat 16 s.irqEn.toNat) ∧
    ReadsAs 0x0004 .rdTcnt (fun s => s.tcnt)

/-- 41_capture.md R126, R128 to R132: the axis is the wrapped difference divided by 8 toward zero (R125). -/
def Obligations.CaptureReadsReturnTheirRegisters : Prop :=
  ReadsAs 0x0010 .rdCapCtrl (fun s => BitVec.ofNat 16 s.cap.en.toNat) ∧
    ReadsAs 0x0011 .rdCapFence (fun s => s.cap.fence) ∧
    ∀ n : Fin 4,
      ReadsAs (BitVec.ofNat 16 (0x14 + n.val)) (.rdCapWidth (BitVec.ofNat 2 n.val)) (fun s => s.cap.width[n]) ∧
      ReadsAs (BitVec.ofNat 16 (0x18 + n.val)) (.rdCapStart (BitVec.ofNat 2 n.val)) (fun s => s.cap.start[n]) ∧
      ReadsAs (BitVec.ofNat 16 (0x1C + n.val)) (.rdCapAxis (BitVec.ofNat 2 n.val))
        (fun s => BitVec.ofInt 16 (Int.tdiv (s.cap.width[n] - s.cap.center[n]).toInt 8)) ∧
      ReadsAs (BitVec.ofNat 16 (0x20 + n.val)) (.rdCapCenter (BitVec.ofNat 2 n.val)) (fun s => s.cap.center[n])

/-- 42_pid.md R152, R154, R156, R158, R160, R162, R164, R166 to R169. -/
def Obligations.PidReadsReturnTheirRegisters : Prop :=
  ReadsAs 0x0030 .rdPidCtrl (fun s => BitVec.ofNat 16 (
      s.pid.dShift.toNat * 2 ^ 8 + s.pid.iShift.toNat * 2 ^ 4 + (if s.pid.dEn then 2 else 0) +
        (if s.pid.iEn then 1 else 0))) ∧
    ReadsAs 0x0031 .rdPidSp (fun s => s.pid.sp) ∧ ReadsAs 0x0032 .rdPidPv (fun s => s.pid.pv) ∧
    ReadsAs 0x0033 .rdPidKp (fun s => s.pid.kp) ∧
    ReadsAs 0x0034 .rdPidElim (fun s => BitVec.ofNat 16 s.pid.elim.toNat) ∧
    ReadsAs 0x0035 .rdPidEps (fun s => BitVec.ofNat 16 s.pid.eps.toNat) ∧
    ReadsAs 0x0036 .rdPidColl (fun s => s.pid.coll) ∧ ReadsAs 0x0037 .rdPidInt (fun s => s.pid.integ) ∧
    ReadsAs 0x0038 .rdPidLasterr (fun s => s.pid.lastErr) ∧ ReadsAs 0x0039 .rdPidOut (fun s => s.pid.out) ∧
    ReadsAs 0x003A .rdPidStat (fun s => BitVec.ofNat 16 s.pid.stat.toNat)

/-- 43_synth.md R190, R192, R194, R196, R198, R200, R202, R204 to R207. SYN_DIVPH reads the held phase, also in the one case
where R206's corner case disagrees with R183 and R199 (the model's choice, log 20). -/
def Obligations.SynthReadsReturnTheirRegisters : Prop :=
  ReadsAs 0x0040 .rdSynCtrl (fun s => if s.syn.en then 1 else 0) ∧
    ReadsAs 0x0041 .rdSynOuten (fun s => BitVec.ofNat 16 s.syn.outen.toNat) ∧
    ReadsAs 0x0042 .rdSynWide (fun s => BitVec.ofNat 16 s.syn.wide.toNat) ∧
    ReadsAs 0x0043 .rdSynSlow (fun s => BitVec.ofNat 16 s.syn.slow.toNat) ∧
    ReadsAs 0x0044 .rdSynLow (fun s => s.syn.low) ∧
    ReadsAs 0x0045 .rdSynDiv (fun s => BitVec.ofNat 16 s.syn.div.toNat) ∧
    ReadsAs 0x0046 .rdSynRoute0 (fun s => BitVec.ofNat 16 (
      s.syn.route[3].val * 2 ^ 12 + s.syn.route[2].val * 2 ^ 8 + s.syn.route[1].val * 2 ^ 4 + s.syn.route[0].val)) ∧
    ReadsAs 0x0047 .rdSynRoute1 (fun s => BitVec.ofNat 16 (s.syn.route[5].val * 2 ^ 4 + s.syn.route[4].val)) ∧
    ReadsAs 0x0048 .rdSynFstart (fun s => s.syn.fstart) ∧
    ReadsAs 0x0049 .rdSynDivph (fun s => BitVec.ofNat 16 s.syn.divph.toNat) ∧
    ReadsAs 0x004A .rdSynLevel (fun s => BitVec.ofNat 16 s.syn.level.toNat)

/-- 43_synth.md R209, R212: every index 0..5. -/
def Obligations.SynthIndexedReadsReturnTheirRegisters : Prop :=
  ∀ o : Fin 6,
    ReadsAs (BitVec.ofNat 16 (0x50 + o.val)) (.rdSynCmd (BitVec.ofNat 3 o.val)) (fun s => s.syn.cmd[o]) ∧
    ReadsAs (BitVec.ofNat 16 (0x58 + o.val)) (.rdSynAct (BitVec.ofNat 3 o.val)) (fun s => s.syn.act[o])

/-- 20_memory.md R64: a legal read changes nothing but BUS_RDATA, and repeated it returns the same value; an illegal
read is the one exception, it sets BUSERR and IRQ_PEND.ERR, and nothing else. -/
def Obligations.ReadsHaveNoSideEffect : Prop :=
  ∀ (s : State) (t : BusWord), t.getLsbD 31 = false →
    ∃ v : Reg,
      ((∃ i, decode t = .ok i) →
        perform (.host t) s = .next { s with busRdata := some v } ∧
          perform (.host t) { s with busRdata := some v } = .next { s with busRdata := some v }) ∧
      ((∃ e, decode t = .error e) →
        ∃ pend : BitVec 11,
          perform (.host t) s = .next { s with busRdata := some 0, busErr := true, irqPend := pend } ∧
            ∀ b : Nat, pend.getLsbD b = (s.irqPend.getLsbD b || decide (b = 10)))

/-! ### Writes and commands of the global page -/

/-- 40_global.md R105: write one to clear. -/
def Obligations.PendingWriteClearsTheNamedBits : Prop :=
  (∀ v : Reg, decode (0x8002#16 ++ v) = .ok (.wrIrqPend v)) ∧
    ∀ (s : State) (v : Reg), ∃ pend : BitVec 11,
      exec (.wrIrqPend v) s = .next { s with busRdata := none, irqPend := pend } ∧
        ∀ b : Nat, b < 11 → pend.getLsbD b = (s.irqPend.getLsbD b && !v.getLsbD b)

/-- 40_global.md R107, 10_state.md R55: the eleven enables are stored, and IRQ follows at once. -/
def Obligations.EnableWriteStoresElevenBits : Prop :=
  (∀ v : Reg, decode (0x8003#16 ++ v) = .ok (.wrIrqEn v)) ∧
    ∀ (s : State) (v : Reg), ∃ en : BitVec 11,
      exec (.wrIrqEn v) s = .next { s with busRdata := none, irqEn := en } ∧
        (∀ b : Nat, b < 11 → en.getLsbD b = v.getLsbD b) ∧
        ({ s with busRdata := none, irqEn := en }.irq = true ↔
          ∃ b : Nat, b < 11 ∧ s.irqPend.getLsbD b = true ∧ v.getLsbD b = true)

/-- 40_global.md R110: CLR_ERR clears BUSERR alone; IRQ_PEND.ERR stays. -/
def Obligations.ClearErrorClearsBusErrAlone : Prop :=
  decode 0x80050001#32 = .ok .cmdClrErr ∧
    ∀ s : State, exec .cmdClrErr s = .next { s with busRdata := none, busErr := false }

/-- 40_global.md R111, 70_reset_and_hazards.md R250, R251: SOFT_RESET and a reset step leave the reset state, with
WIDTH and START as they were, whatever these are. The model's own two fields stay (log 15), and BUS_RDATA holds no value
after a reset step (log 7). R111 and R250 are followed where 20_memory.md R65 disagrees about a repeat (log 19). -/
def Obligations.SoftResetIsTheResetState : Prop :=
  decode 0x800500A5#32 = .ok .cmdSoftReset ∧
    ∀ s : State,
      exec .cmdSoftReset s =
          .next { State.powerOn s.cap.width s.cap.start with schedule := s.schedule, drawIx := s.drawIx } ∧
        perform .reset s = exec .cmdSoftReset s

/-- 10_state.md R22 with 70_reset_and_hazards.md R252: what every register with a stated reset value reads after reset,
whatever WIDTH and START hold; IRQ and OUT are low. -/
def Obligations.ResetValuesOfTheRegisterMap : Prop :=
  ∀ width start : Vector Reg 4,
    let s := State.powerOn width start
    s.irq = false ∧ s.outPins = 0 ∧
      ∀ x ∈ ([(0x00, 0x4B4B), (0x01, 0), (0x02, 0), (0x03, 0), (0x04, 0), (0x10, 0), (0x11, 0), (0x20, 0x2F80),
          (0x21, 0x2F80), (0x22, 0x2300), (0x23, 0x2F80), (0x30, 0x0423), (0x31, 0), (0x32, 0), (0x33, 0x0100),
          (0x34, 0x03FF), (0x35, 0), (0x36, 0), (0x37, 0), (0x38, 0), (0x39, 0), (0x3A, 0), (0x40, 0), (0x41, 0),
          (0x42, 0), (0x43, 0), (0x44, 0x06F0), (0x45, 1), (0x46, 0x3210), (0x47, 0x0054), (0x48, 0), (0x49, 0),
          (0x4A, 0), (0x50, 0), (0x51, 0), (0x52, 0), (0x53, 0), (0x54, 0), (0x55, 0), (0x58, 0x1F40),
          (0x59, 0x1F40), (0x5A, 0x1F40), (0x5B, 0x1F40), (0x5C, 0x1F40), (0x5D, 0x1F40)] : List (Nat × Nat)),
        perform (.host (BitVec.ofNat 32 (x.1 * 2 ^ 16))) s = .next { s with busRdata := some (BitVec.ofNat 16 x.2) }

/-! ### Capture -/

/-- 41_capture.md R127: EN takes the four bits, and a channel disabled by the write forgets its rising edge. -/
def Obligations.CaptureControlWriteForgetsDisabledEdges : Prop :=
  (∀ v : Reg, decode (0x8010#16 ++ v) = .ok (.wrCapCtrl v)) ∧
    ∀ (s : State) (v : Reg), ∃ en seen : BitVec 4,
      exec (.wrCapCtrl v) s = .next { s with busRdata := none, cap := { s.cap with en := en, riseSeen := seen } } ∧
        ∀ n : Chan, en.getLsbD n.val = v.getLsbD n.val ∧
          seen.getLsbD n.val =
            (if s.cap.en.getLsbD n.val = true ∧ v.getLsbD n.val = false then false else s.cap.riseSeen.getLsbD n.val)

/-- 41_capture.md R133, R134: a center takes all 16 bits and no other center changes; CAP_CLR clears VALID and
RISE_SEEN of every channel. -/
def Obligations.CenterWriteAndCaptureClear : Prop :=
  (∀ (n : Fin 4) (v : Reg),
      decode (BitVec.ofNat 16 (0x8020 + n.val) ++ v) = .ok (.wrCapCenter (BitVec.ofNat 2 n.val) v) ∧
        ∀ s : State, ∃ center : Vector Reg 4,
          exec (.wrCapCenter (BitVec.ofNat 2 n.val) v) s =
              .next { s with busRdata := none, cap := { s.cap with center := center } } ∧
            center[n] = v ∧ ∀ m : Chan, m ≠ n → center[m] = s.cap.center[m]) ∧
    decode 0x80050002#32 = .ok .cmdCapClr ∧
    ∀ s : State,
      exec .cmdCapClr s = .next { s with busRdata := none, cap := { s.cap with valid := 0, riseSeen := 0 } }

/-- 41_capture.md R120 to R123: what one tick does on one channel. -/
def Obligations.CaptureTickOnEachChannel : Prop :=
  ∀ (levels : BitVec 4) (d : Draws) (s : State) (n : Chan), ∃ t : State, perform (.tick levels d) s = .next t ∧
    let rise := s.cap.prev.getLsbD n.val = false ∧ levels.getLsbD n.val = true
    let fall := s.cap.prev.getLsbD n.val = true ∧ levels.getLsbD n.val = false
    let en := s.cap.en.getLsbD n.val = true
    let seen := s.cap.riseSeen.getLsbD n.val = true
    t.cap.prev.getLsbD n.val = levels.getLsbD n.val ∧
      (en ∧ rise → t.cap.start[n] = s.tcnt + 1 ∧ t.cap.riseSeen.getLsbD n.val = true ∧
        t.irqPend.getLsbD (4 + n.val) = true) ∧
      (¬ (en ∧ rise) → t.cap.start[n] = s.cap.start[n] ∧
        t.cap.riseSeen.getLsbD n.val = s.cap.riseSeen.getLsbD n.val ∧
        t.irqPend.getLsbD (4 + n.val) = s.irqPend.getLsbD (4 + n.val)) ∧
      (en ∧ fall ∧ seen → t.cap.width[n] = s.tcnt + 1 - s.cap.start[n] ∧ t.cap.valid.getLsbD n.val = true ∧
        t.irqPend.getLsbD n.val = true) ∧
      (¬ (en ∧ fall ∧ seen) → t.cap.width[n] = s.cap.width[n] ∧
        t.cap.valid.getLsbD n.val = s.cap.valid.getLsbD n.val ∧
        t.irqPend.getLsbD n.val = s.irqPend.getLsbD n.val)

/-- 41_capture.md R124: FENCE advances by the number of publishes of the tick. -/
def Obligations.FenceCountsThePublishes : Prop :=
  ∀ (levels : BitVec 4) (d : Draws) (s : State), ∃ t : State, perform (.tick levels d) s = .next t ∧
    t.cap.fence.toNat = (s.cap.fence.toNat + (publishingChannels levels s).length) % 65536

/-- 41_capture.md R120 "The four channels are independent": what a tick does on a channel is the same whatever the other
lines read and the other channels hold. -/
def Obligations.CaptureChannelsAreIndependent : Prop :=
  ∀ (lv1 lv2 : BitVec 4) (d1 d2 : Draws) (s1 s2 t1 t2 : State) (n : Chan),
    lv1.getLsbD n.val = lv2.getLsbD n.val → s1.tcnt = s2.tcnt →
    s1.cap.en.getLsbD n.val = s2.cap.en.getLsbD n.val → s1.cap.prev.getLsbD n.val = s2.cap.prev.getLsbD n.val →
    s1.cap.riseSeen.getLsbD n.val = s2.cap.riseSeen.getLsbD n.val →
    s1.cap.valid.getLsbD n.val = s2.cap.valid.getLsbD n.val →
    s1.cap.start[n] = s2.cap.start[n] → s1.cap.width[n] = s2.cap.width[n] →
    perform (.tick lv1 d1) s1 = .next t1 → perform (.tick lv2 d2) s2 = .next t2 →
    t1.cap.prev.getLsbD n.val = t2.cap.prev.getLsbD n.val ∧
      t1.cap.riseSeen.getLsbD n.val = t2.cap.riseSeen.getLsbD n.val ∧
      t1.cap.valid.getLsbD n.val = t2.cap.valid.getLsbD n.val ∧
      t1.cap.start[n] = t2.cap.start[n] ∧ t1.cap.width[n] = t2.cap.width[n]

/-- 41_capture.md R136: on an enabled channel that was low, a line sampled high at `l.length` ticks in a row and then low
publishes that number modulo 65536. -/
def Obligations.PulsePublishesItsTicks : Prop :=
  ∀ (s : State) (n : Chan) (l : List (BitVec 4 × Draws)) (last : BitVec 4 × Draws),
    s.cap.en.getLsbD n.val = true → s.cap.prev.getLsbD n.val = false → l ≠ [] →
    (∀ x ∈ l, x.1.getLsbD n.val = true) → last.1.getLsbD n.val = false →
    let t := runTicks (l ++ [last]) s
    t.cap.width[n].toNat = l.length % 65536 ∧ t.cap.valid.getLsbD n.val = true ∧ t.irqPend.getLsbD n.val = true

/-- 41_capture.md R135: while no edge arrives on a line, its channel keeps WIDTH, VALID and START. -/
def Obligations.NoEdgeFreezesTheWidth : Prop :=
  ∀ (s : State) (n : Chan) (l : List (BitVec 4 × Draws)),
    (∀ x ∈ l, x.1.getLsbD n.val = s.cap.prev.getLsbD n.val) →
    let t := runTicks l s
    t.cap.width[n] = s.cap.width[n] ∧ t.cap.valid.getLsbD n.val = s.cap.valid.getLsbD n.val ∧
      t.cap.start[n] = s.cap.start[n]

/-- 20_memory.md R70, 70_reset_and_hazards.md R264: over moves with no reset among them, fewer than 65536 publishes and
an unchanged FENCE mean no publish and unchanged widths. (The rule's guarantee; a reset between the two reads would set
FENCE to 0, which the rule does not consider: log 16.) -/
def Obligations.EqualFencesMeanNoPublish : Prop :=
  ∀ (l : List Stimulus) (s t : State), runMoves l s = some t → (∀ m ∈ l, movesReset m = false) →
    publishCount l s < 65536 → t.cap.fence = s.cap.fence →
    publishCount l s = 0 ∧ t.cap.width = s.cap.width

/-! ### PID -/

/-- 42_pid.md R153, R155, R157, R159, R161, R163, R165. -/
def Obligations.PidWritesStoreTheirFields : Prop :=
  (∀ v : Reg, decode (0x8030#16 ++ v) = .ok (.wrPidCtrl v) ∧ decode (0x8031#16 ++ v) = .ok (.wrPidSp v) ∧
      decode (0x8032#16 ++ v) = .ok (.wrPidPv v) ∧ decode (0x8033#16 ++ v) = .ok (.wrPidKp v) ∧
      decode (0x8034#16 ++ v) = .ok (.wrPidElim v) ∧ decode (0x8035#16 ++ v) = .ok (.wrPidEps v) ∧
      decode (0x8036#16 ++ v) = .ok (.wrPidColl v)) ∧
    ∀ (s : State) (v : Reg),
      exec (.wrPidCtrl v) s = .next {
          s with
          busRdata := none
          pid := {
            s.pid with
            iEn := decide (v.toNat % 2 = 1), dEn := decide (v.toNat / 2 % 2 = 1)
            iShift := BitVec.ofNat 4 (v.toNat / 2 ^ 4), dShift := BitVec.ofNat 4 (v.toNat / 2 ^ 8) } } ∧
        exec (.wrPidSp v) s = .next { s with busRdata := none, pid := { s.pid with sp := v } } ∧
        exec (.wrPidPv v) s = .next { s with busRdata := none, pid := { s.pid with pv := v } } ∧
        exec (.wrPidKp v) s = .next { s with busRdata := none, pid := { s.pid with kp := v } } ∧
        exec (.wrPidElim v) s =
          .next { s with busRdata := none, pid := { s.pid with elim := BitVec.ofNat 15 v.toNat } } ∧
        exec (.wrPidEps v) s =
          .next { s with busRdata := none, pid := { s.pid with eps := BitVec.ofNat 15 v.toNat } } ∧
        exec (.wrPidColl v) s = .next { s with busRdata := none, pid := { s.pid with coll := v } }

/-- 42_pid.md R150, R170: one controller step on exact integers; every shift is the floor of the exact quotient, and
every stored value is the exact one. -/
def Obligations.PidStepFollowsTheLaw : Prop :=
  ∀ s : State,
    let p := s.pid
    let eRaw : Int := p.sp.toInt - p.pv.toInt
    let e : Int := max (-(p.elim.toNat : Int)) (min eRaw p.elim.toNat)
    let lim : Int := max 0 ⌊(p.coll.toInt : ℚ) / 2 ^ 3⌋
    let acc : Int := if |e| > (p.eps.toNat : Int) then p.integ.toInt + e else p.integ.toInt
    let inew : Int := max (-lim) (min acc lim)
    let iterm : Int := if p.iEn then ⌊(inew : ℚ) / 2 ^ p.iShift.toNat⌋ else 0
    let dRaw : Int := p.lastErr.toInt - e
    let dClamped : Int := max (-lim) (min dRaw lim)
    let dterm : Int := if p.dEn then ⌊(dClamped : ℚ) / 2 ^ p.dShift.toNat⌋ else 0
    let sum : Int := ⌊((p.kp.toNat * e : Int) : ℚ) / 2 ^ 8⌋ + iterm + dterm
    let out : Int := max (-32768) (min sum 32767)
    ∃ (integ lastErr res : Reg) (stat : BitVec 4),
      exec .cmdPidStep s = .next {
          s with
          busRdata := none
          pid := { s.pid with integ := integ, lastErr := lastErr, out := res, stat := stat } } ∧
        integ.toInt = (if p.iEn then inew else p.integ.toInt) ∧ lastErr.toInt = e ∧ res.toInt = out ∧
        (stat.getLsbD 0 = true ↔ e ≠ eRaw) ∧ (stat.getLsbD 1 = true ↔ p.iEn = true ∧ inew ≠ acc) ∧
        (stat.getLsbD 2 = true ↔ p.dEn = true ∧ dClamped ≠ dRaw) ∧ (stat.getLsbD 3 = true ↔ out ≠ sum)

/-- 42_pid.md R171: PID_CLR clears INT, LASTERR, OUT and PID_STAT alone. -/
def Obligations.PidClearClearsTheResults : Prop :=
  decode 0x80050011#32 = .ok .cmdPidClr ∧
    ∀ s : State, exec .cmdPidClr s = .next {
      s with busRdata := none, pid := { s.pid with integ := 0, lastErr := 0, out := 0, stat := 0 } }

/-- 42_pid.md R173: with the reset configuration a step is the yaw law and never saturates the output; with I and D off
and ELIM = 32767 it is the rate law. -/
def Obligations.YawAndRateLaws : Prop :=
  (∀ s : State, s.pid.iEn = true → s.pid.dEn = true → s.pid.iShift = 2 → s.pid.dShift = 4 → s.pid.kp = 0x0100 →
      s.pid.elim = 1023 → s.pid.eps = 0 →
      let e : Int := max (-1023) (min (s.pid.sp.toInt - s.pid.pv.toInt) 1023)
      let lim : Int := max 0 ⌊(s.pid.coll.toInt : ℚ) / 8⌋
      ∃ t : State, exec .cmdPidStep s = .next t ∧ t.pid.stat.getLsbD 3 = false ∧
        t.pid.out.toInt = e + ⌊(t.pid.integ.toInt : ℚ) / 4⌋ +
          ⌊((max (-lim) (min (s.pid.lastErr.toInt - e) lim) : Int) : ℚ) / 16⌋) ∧
    ∀ s : State, s.pid.iEn = false → s.pid.dEn = false → s.pid.kp = 0x0100 → s.pid.elim = 32767 →
      ∃ t : State, exec .cmdPidStep s = .next t ∧
        t.pid.out.toInt = max (-32767) (min (s.pid.sp.toInt - s.pid.pv.toInt) 32767)

/-- 00_scope.md R10, 42_pid.md R151, 41_capture.md R125: asr is the floor of the exact quotient, sdiv8 the quotient
rounded toward zero, which is odd. -/
def Obligations.ShiftsRoundAsTheSpecSays : Prop :=
  (∀ (v : Int) (k : Nat), asr v k = ⌊(v : ℚ) / 2 ^ k⌋) ∧
    (∀ v : Int, sdiv8 v = Int.tdiv v 8) ∧ ∀ v : Int, sdiv8 (-v) = -sdiv8 v

/-! ### Synthesizer: transactions -/

/-- 43_synth.md R193, R195, R197, R199. That WR SYN_DIV leaves DIVPH, also where DIV becomes 1, is the model's choice between
R183 and R199 and the corner case of R206 (log 20). -/
def Obligations.SynthWritesStoreTheirFields : Prop :=
  (∀ v : Reg, decode (0x8042#16 ++ v) = .ok (.wrSynWide v) ∧ decode (0x8043#16 ++ v) = .ok (.wrSynSlow v) ∧
      decode (0x8044#16 ++ v) = .ok (.wrSynLow v) ∧ decode (0x8045#16 ++ v) = .ok (.wrSynDiv v)) ∧
    ∀ (s : State) (v : Reg),
      exec (.wrSynWide v) s = .next { s with busRdata := none, syn := { s.syn with wide := BitVec.ofNat 6 v.toNat } } ∧
        exec (.wrSynSlow v) s =
          .next { s with busRdata := none, syn := { s.syn with slow := BitVec.ofNat 6 v.toNat } } ∧
        exec (.wrSynLow v) s = .next {
          s with busRdata := none, syn := { s.syn with low := if v.toNat ≤ 49535 then v else 49535 } } ∧
        exec (.wrSynDiv v) s = .next {
          s with
          busRdata := none
          syn := { s.syn with div := if v.toNat % 256 = 0 then 1 else BitVec.ofNat 8 v.toNat } }

/-- 43_synth.md R201, R203: a legal ROUTE write stores its nibbles as slot numbers and leaves the other register's
routes alone (bits 15:8 of SYN_ROUTE1 ignored); a write with a bad nibble changes no route. -/
def Obligations.RouteWritesStoreSlotNumbers : Prop :=
  ∀ (s : State) (v : Reg),
    let nib (j : Nat) := v.toNat / 16 ^ j % 16
    ((∀ j < 4, nib j ≤ 5) → decode (0x8046#16 ++ v) = .ok (.wrSynRoute0 v) ∧
      ∃ route : Vector Slot 6,
        exec (.wrSynRoute0 v) s = .next { s with busRdata := none, syn := { s.syn with route := route } } ∧
          route[0].val = nib 0 ∧ route[1].val = nib 1 ∧ route[2].val = nib 2 ∧ route[3].val = nib 3 ∧
          route[4] = s.syn.route[4] ∧ route[5] = s.syn.route[5]) ∧
    ((∀ j < 2, nib j ≤ 5) → decode (0x8047#16 ++ v) = .ok (.wrSynRoute1 v) ∧
      ∃ route : Vector Slot 6,
        exec (.wrSynRoute1 v) s = .next { s with busRdata := none, syn := { s.syn with route := route } } ∧
          route[4].val = nib 0 ∧ route[5].val = nib 1 ∧ route[0] = s.syn.route[0] ∧ route[1] = s.syn.route[1] ∧
          route[2] = s.syn.route[2] ∧ route[3] = s.syn.route[3]) ∧
    ((∃ j < 4, 5 < nib j) → ∃ t, perform (.host (0x8046#16 ++ v)) s = .next t ∧ t.syn = s.syn ∧ t.busErr = true) ∧
    ((∃ j < 2, 5 < nib j) → ∃ t, perform (.host (0x8047#16 ++ v)) s = .next t ∧ t.syn = s.syn ∧ t.busErr = true)

/-- 43_synth.md R208: a command is stored as written, in its slot alone, and no output changes. -/
def Obligations.CommandWriteStagesItsSlot : Prop :=
  ∀ (k : Fin 6) (v : Reg),
    decode (BitVec.ofNat 16 (0x8050 + k.val) ++ v) = .ok (.wrSynCmd (BitVec.ofNat 3 k.val) v) ∧
      ∀ s : State, ∃ cmd : Vector Reg 6,
        exec (.wrSynCmd (BitVec.ofNat 3 k.val) v) s =
            .next { s with busRdata := none, syn := { s.syn with cmd := cmd } } ∧
          cmd[k] = v ∧ ∀ j : Slot, j ≠ k → cmd[j] = s.syn.cmd[j]

/-- 43_synth.md R210, R211: what the two commands do at once. -/
def Obligations.CommitAndCancelSetPending : Prop :=
  decode 0x80050020#32 = .ok .cmdSynCommit ∧ decode 0x80050021#32 = .ok .cmdSynCancel ∧
    ∀ s : State,
      exec .cmdSynCommit s = .next { s with busRdata := none, syn := { s.syn with pend := true } } ∧
        exec .cmdSynCancel s = .next { s with busRdata := none, syn := { s.syn with pend := false } }

/-- 43_synth.md R189: enabling requests a frame, disabling drives every output low, and writing the value held changes
nothing. -/
def Obligations.SequencerEnableWrite : Prop :=
  (∀ v : Reg, decode (0x8040#16 ++ v) = .ok (.wrSynCtrl v)) ∧
    ∀ (s : State) (v : Reg),
      (s.syn.en = false → v.getLsbD 0 = true →
        exec (.wrSynCtrl v) s =
          .next { s with busRdata := none, syn := { s.syn with en := true, startReq := true } }) ∧
      (s.syn.en = true → v.getLsbD 0 = false →
        exec (.wrSynCtrl v) s = .next {
          s with
          busRdata := none, syn := { s.syn with en := false, startReq := false, level := 0, active := 0 } }) ∧
      (s.syn.en = v.getLsbD 0 → exec (.wrSynCtrl v) s = .next { s with busRdata := none })

/-- 43_synth.md R191: a disabled output is low and idle at once, an enabled one keeps its level. -/
def Obligations.OutputEnableWrite : Prop :=
  (∀ v : Reg, decode (0x8041#16 ++ v) = .ok (.wrSynOuten v)) ∧
    ∀ (s : State) (v : Reg), ∃ outen level active : BitVec 6,
      exec (.wrSynOuten v) s = .next {
          s with busRdata := none, syn := { s.syn with outen := outen, level := level, active := active } } ∧
        ∀ o : Slot, outen.getLsbD o.val = v.getLsbD o.val ∧
          (v.getLsbD o.val = false → level.getLsbD o.val = false ∧ active.getLsbD o.val = false) ∧
          (v.getLsbD o.val = true → level.getLsbD o.val = s.syn.level.getLsbD o.val ∧
            active.getLsbD o.val = s.syn.active.getLsbD o.val)

/-! ### Synthesizer: ticks -/

/-- 43_synth.md R180: the target is the clamped, biased and scaled command; its range and corner cases. -/
def Obligations.TargetIsClampedBiasedScaled : Prop :=
  ∀ (c : Reg) (w : Bool),
    let top : Int := if w then 2000 else 1000
    (c.toInt < 0 → pulseTarget c w = 8000) ∧
      (0 ≤ c.toInt → c.toInt ≤ top → pulseTarget c w = 8 * c.toInt + 8000) ∧
      (top < c.toInt → pulseTarget c w = 8 * top + 8000) ∧
      8000 ≤ pulseTarget c w ∧ pulseTarget c w ≤ (if w then 24000 else 16000)

/-- 40_global.md R100, R101: every tick counts, whatever the enables hold, and no tick changes a register the host
configures, BUSERR, the PID unit or the staged commands. -/
def Obligations.TickCountsAndKeepsTheConfiguration : Prop :=
  ∀ (levels : BitVec 4) (d : Draws) (s : State), ∃ t : State, perform (.tick levels d) s = .next t ∧
    t.tcnt.toNat = (s.tcnt.toNat + 1) % 65536 ∧ t.irqEn = s.irqEn ∧ t.busErr = s.busErr ∧ t.pid = s.pid ∧
    t.cap.en = s.cap.en ∧ t.cap.center = s.cap.center ∧ t.syn.en = s.syn.en ∧ t.syn.outen = s.syn.outen ∧
    t.syn.wide = s.syn.wide ∧ t.syn.slow = s.syn.slow ∧ t.syn.low = s.syn.low ∧ t.syn.div = s.syn.div ∧
    t.syn.route = s.syn.route ∧ t.syn.cmd = s.syn.cmd ∧ t.schedule = s.schedule ∧ t.drawIx = s.drawIx

/-- 43_synth.md R183 (with R182's condition): what the tick that starts a frame leaves, on the registers, on the pending
bits FRAME, LATCH and ERR, and on each output. That the delays come with the tick and are cut at J, `min … J` here, is the
model's choice (log 4). -/
def Obligations.FrameStartTick : Prop :=
  ∀ (levels : BitVec 4) (d : Draws) (s : State), s.syn.en = true →
    (s.syn.startReq = true ∨ 16000 + s.syn.low.toNat ≤ (s.tcnt + 1 - s.syn.fstart).toNat) →
    ∃ t : State, perform (.tick levels d) s = .next t ∧
      t.syn.startReq = false ∧ t.syn.fstart = s.tcnt + 1 ∧
      t.syn.divph.toNat = (if s.syn.startReq = true ∨ s.syn.div.toNat ≤ s.syn.divph.toNat + 1 then 0
        else s.syn.divph.toNat + 1) ∧
      t.syn.pend = false ∧ t.irqPend.getLsbD 8 = true ∧
      t.irqPend.getLsbD 9 = (s.syn.pend || s.irqPend.getLsbD 9) ∧
      t.irqPend.getLsbD 10 = s.irqPend.getLsbD 10 ∧
      ∀ o : Slot,
        (t.syn.act[o].toNat : Int) =
            (if s.syn.pend = true then pulseTarget s.syn.cmd[s.syn.route[o]] (s.syn.wide.getLsbD o.val)
              else s.syn.act[o].toNat) ∧
          let pulses := s.syn.outen.getLsbD o.val = true ∧ (s.syn.slow.getLsbD o.val = false ∨ t.syn.divph = 0)
          let don := min (if o = 4 then d.on4 else d.on5) Config.jitterTicks
          let doff := min (if o = 4 then d.off4 else d.off5) Config.jitterTicks
          (pulses → t.syn.active.getLsbD o.val = true ∧
            (o.val ≤ 3 → t.syn.onAt[o] = 0 ∧ t.syn.offAt[o] = t.syn.act[o].toNat ∧
              t.syn.level.getLsbD o.val = true) ∧
            (3 < o.val → t.syn.onAt[o] = don ∧ t.syn.offAt[o] = t.syn.act[o].toNat + doff ∧
              t.syn.level.getLsbD o.val = (s.syn.level.getLsbD o.val || decide (don = 0)))) ∧
          (¬ pulses → t.syn.active.getLsbD o.val = false ∧ t.syn.onAt[o] = s.syn.onAt[o] ∧
            t.syn.offAt[o] = s.syn.offAt[o] ∧ t.syn.level.getLsbD o.val = s.syn.level.getLsbD o.val)

/-- 43_synth.md R182, R187: a tick inside a frame moves the levels of the active outputs at their transition ticks and
changes nothing else of the synthesizer; while SYN_EN = 0 a tick changes nothing of it. Neither tick changes the pending
bits FRAME, LATCH and ERR (10_state.md R26, 60_exceptions.md R233). -/
def Obligations.TickInsideAFrame : Prop :=
  ∀ (levels : BitVec 4) (d : Draws) (s : State),
    (s.syn.en = false → ∃ t : State, perform (.tick levels d) s = .next t ∧ t.syn = s.syn ∧
      ∀ b : Nat, 8 ≤ b → t.irqPend.getLsbD b = s.irqPend.getLsbD b) ∧
    (s.syn.en = true → s.syn.startReq = false →
      (s.tcnt + 1 - s.syn.fstart).toNat < 16000 + s.syn.low.toNat →
      ∃ (t : State) (level : BitVec 6), perform (.tick levels d) s = .next t ∧
        t.syn = { s.syn with level := level } ∧
        (∀ b : Nat, 8 ≤ b → t.irqPend.getLsbD b = s.irqPend.getLsbD b) ∧
        ∀ o : Slot,
          level.getLsbD o.val =
            (if s.syn.active.getLsbD o.val = true ∧ (s.tcnt + 1 - s.syn.fstart).toNat = s.syn.offAt[o] then false
            else if s.syn.active.getLsbD o.val = true ∧ (s.tcnt + 1 - s.syn.fstart).toNat = s.syn.onAt[o] then true
            else s.syn.level.getLsbD o.val))

/-- 43_synth.md R186, R183: an enabled slow output gets a pulse at the first frame start and at every later one whose
phase returns to 0, the phase counting modulo DIV; at the others it is idle and holds its level, and while it is idle no
tick inside the frame changes its level. -/
def Obligations.SlowOutputIsHeldOnSkippedFrames : Prop :=
  ∀ (levels : BitVec 4) (d : Draws) (s : State) (o : Slot), s.syn.en = true → s.syn.outen.getLsbD o.val = true →
    s.syn.slow.getLsbD o.val = true →
    ∃ t : State, perform (.tick levels d) s = .next t ∧
      (s.syn.startReq = true → t.syn.divph = 0 ∧ t.syn.active.getLsbD o.val = true) ∧
      (s.syn.startReq = false → 16000 + s.syn.low.toNat ≤ (s.tcnt + 1 - s.syn.fstart).toNat →
        s.syn.divph.toNat < s.syn.div.toNat →
        t.syn.divph.toNat = (s.syn.divph.toNat + 1) % s.syn.div.toNat ∧
          (t.syn.divph = 0 → t.syn.active.getLsbD o.val = true) ∧
          (t.syn.divph ≠ 0 → t.syn.active.getLsbD o.val = false ∧
            t.syn.level.getLsbD o.val = s.syn.level.getLsbD o.val)) ∧
      (s.syn.active.getLsbD o.val = false → s.syn.startReq = false →
        (s.tcnt + 1 - s.syn.fstart).toNat < 16000 + s.syn.low.toNat →
        t.syn.active.getLsbD o.val = false ∧ t.syn.level.getLsbD o.val = s.syn.level.getLsbD o.val)

/-- 70_reset_and_hazards.md R281, 43_synth.md R181, R182: from a frame start on, with no transaction between, the next
frame starts exactly at the FRAME_LEN-th tick and not before. -/
def Obligations.FramesRepeatEveryFrameLength : Prop :=
  ∀ (s : State) (l : List (BitVec 4 × Draws)), s.syn.en = true → s.syn.startReq = false → elapsed s = 0 →
    s.syn.low.toNat ≤ 49535 →
    (l.length < 16000 + s.syn.low.toNat →
      (runTicks l s).syn.fstart = s.syn.fstart ∧ elapsed (runTicks l s) = l.length) ∧
    (l.length = 16000 + s.syn.low.toNat →
      (runTicks l s).syn.fstart = s.syn.fstart + BitVec.ofNat 16 (16000 + s.syn.low.toNat) ∧
        elapsed (runTicks l s) = 0 ∧ (runTicks l s).irqPend.getLsbD 8 = true)

/-- 43_synth.md R184, 70_reset_and_hazards.md R283: an active compare output is high for exactly ACT ticks of its frame,
counted from the frame start. -/
def Obligations.CompareOutputIsHighForActTicks : Prop :=
  ∀ (s : State) (l : List (BitVec 4 × Draws)) (o : Slot), s.Inv → s.syn.en = true → s.syn.startReq = false →
    elapsed s = 0 → s.syn.active.getLsbD o.val = true → o.val ≤ 3 → l.length < 16000 + s.syn.low.toNat →
    (runTicks l s).syn.level.getLsbD o.val = decide (l.length < s.syn.act[o].toNat)

/-- 43_synth.md R185, 70_reset_and_hazards.md R283: an active polled output that was low goes high and low at its own
transition ticks, each at most J ticks late. -/
def Obligations.PolledOutputSwitchesWithinJitter : Prop :=
  ∀ (s : State) (l : List (BitVec 4 × Draws)) (o : Slot), s.Inv → s.syn.en = true → s.syn.startReq = false →
    elapsed s = 0 → s.syn.active.getLsbD o.val = true → 3 < o.val →
    s.syn.level.getLsbD o.val = decide (s.syn.onAt[o] = 0) → l.length < 16000 + s.syn.low.toNat →
    (runTicks l s).syn.level.getLsbD o.val = decide (s.syn.onAt[o] ≤ l.length ∧ l.length < s.syn.offAt[o]) ∧
      s.syn.onAt[o] ≤ Config.jitterTicks ∧ s.syn.act[o].toNat ≤ s.syn.offAt[o] ∧
      s.syn.offAt[o] ≤ s.syn.act[o].toNat + Config.jitterTicks

/-! ### The invariant -/

/-- 10_state.md R37, R46, R47, R48, R50, R53, R54; 42_pid.md R166; 43_synth.md R184, R185, R187: every step of every agent
keeps the invariant of the block. -/
def Obligations.InvariantIsKeptByEveryStep : Prop :=
  ∀ s t : State, s.Inv → step s = .next t → t.Inv

/-- 70_reset_and_hazards.md R250, R251: the invariant holds after reset, whatever WIDTH and START hold. -/
def Obligations.InvariantHoldsAfterReset : Prop :=
  State.reset.Inv ∧ ∀ width start : Vector Reg 4, (State.powerOn width start).Inv

/-! ### Rules of the whole machine -/

/-- 60_exceptions.md R235: a pending bit is cleared only by a write of 1 to it, SOFT_RESET or reset. -/
def Obligations.PendingBitsAreClearedOnlyByAckOrReset : Prop :=
  ∀ (m : Stimulus) (s t : State) (b : Nat), perform m s = .next t → s.irqPend.getLsbD b = true →
    t.irqPend.getLsbD b = false →
    movesReset m = true ∨ ∃ (w : BusWord) (v : Reg), m = .host w ∧ decode w = .ok (.wrIrqPend v) ∧ v.getLsbD b = true

/-- 10_state.md R30: BUSERR is set by an illegal transaction alone, and cleared only by CLR_ERR or reset. -/
def Obligations.BusErrChangesOnlyByItsEvents : Prop :=
  ∀ (m : Stimulus) (s t : State), perform m s = .next t →
    (s.busErr = false → t.busErr = true → ∃ (w : BusWord) (e : Illegal), m = .host w ∧ decode w = .error e) ∧
    (s.busErr = true → t.busErr = false →
      movesReset m = true ∨ ∃ w : BusWord, m = .host w ∧ decode w = .ok .cmdClrErr)

/-- 10_state.md R28, 40_global.md R101: no transaction but SOFT_RESET changes TCNT, and every tick counts one. -/
def Obligations.TcntChangesOnlyByTickOrReset : Prop :=
  ∀ (m : Stimulus) (s t : State), perform m s = .next t → movesReset m = false →
    t.tcnt = match m with
      | .tick _ _ => s.tcnt + 1
      | .host _ => s.tcnt
      | .reset => s.tcnt

/-- 10_state.md R33, R34: only a publish on channel n writes WIDTH[n], and only a rising edge on channel n START[n]; a
reset leaves both (70_reset_and_hazards.md R251). -/
def Obligations.CaptureValuesAreWrittenByTheirEdgesAlone : Prop :=
  ∀ (m : Stimulus) (s t : State) (n : Chan), perform m s = .next t →
    (t.cap.width[n] ≠ s.cap.width[n] → ∃ (levels : BitVec 4) (d : Draws), m = .tick levels d ∧
      n ∈ publishingChannels levels s) ∧
    (t.cap.start[n] ≠ s.cap.start[n] → ∃ (levels : BitVec 4) (d : Draws), m = .tick levels d ∧
      s.cap.en.getLsbD n.val = true ∧ s.cap.prev.getLsbD n.val = false ∧ levels.getLsbD n.val = true)

/-- 10_state.md R43: only PID_STEP, PID_CLR and reset write INT, LASTERR and OUT (and PID_STAT, R44). -/
def Obligations.PidResultsAreWrittenByTheirCommandsAlone : Prop :=
  ∀ (m : Stimulus) (s t : State), perform m s = .next t → movesReset m = false →
    (t.pid.integ ≠ s.pid.integ ∨ t.pid.lastErr ≠ s.pid.lastErr ∨ t.pid.out ≠ s.pid.out ∨ t.pid.stat ≠ s.pid.stat) →
    ∃ w : BusWord, m = .host w ∧ (decode w = .ok .cmdPidStep ∨ decode w = .ok .cmdPidClr)

/-- 10_state.md R53: ACT is written only when a commit is latched, which a reset apart is a tick with PEND set that
clears it and raises LATCH. -/
def Obligations.TargetsAreWrittenByALatchAlone : Prop :=
  ∀ (m : Stimulus) (s t : State), perform m s = .next t → movesReset m = false → t.syn.act ≠ s.syn.act →
    (∃ (levels : BitVec 4) (d : Draws), m = .tick levels d) ∧ s.syn.pend = true ∧ t.syn.pend = false ∧
      t.irqPend.getLsbD 9 = true

/-- 10_state.md R55, 60_exceptions.md R236: IRQ is high exactly while an enabled bit is pending. -/
def Obligations.IrqIsTheLevelOfTheEnabledPendingBits : Prop :=
  ∀ s : State, s.irq = true ↔ ∃ b : Nat, b < 11 ∧ s.irqPend.getLsbD b = true ∧ s.irqEn.getLsbD b = true

/-- 60_exceptions.md R234: a source sets its pending bit whatever its enable holds: IRQ_PEND after a move does not
depend on IRQ_EN. -/
def Obligations.PendingDoesNotDependOnEnables : Prop :=
  ∀ (m : Stimulus) (s t u : State) (en : BitVec 11), perform m s = .next t →
    perform m { s with irqEn := en } = .next u → u.irqPend = t.irqPend

/-- 20_memory.md R65: repeating CLR_ERR, CAP_CLR, PID_CLR, SYN_COMMIT, SYN_CANCEL or a write to IRQ_PEND changes nothing
more. -/
def Obligations.RepeatableTransactionsAreIdempotent : Prop :=
  ∀ (i : Instr) (s t : State),
    (i = .cmdClrErr ∨ i = .cmdCapClr ∨ i = .cmdPidClr ∨ i = .cmdSynCommit ∨ i = .cmdSynCancel ∨
      ∃ v : Reg, i = .wrIrqPend v) →
    exec i s = .next t → exec i t = .next t

/-- 20_memory.md R65 "Writing a plain R/W register again with the value it holds changes nothing": reading a writable
register and writing the value back leaves the block as it was. -/
def Obligations.WritingBackTheReadValueChangesNothing : Prop :=
  ∀ (s t : State) (a : Addr) (v : Reg), s.Inv →
    (a = 0x03 ∨ a = 0x10 ∨ (0x20 ≤ a.toNat ∧ a.toNat ≤ 0x23) ∨ (0x30 ≤ a.toNat ∧ a.toNat ≤ 0x36) ∨
      (0x40 ≤ a.toNat ∧ a.toNat ≤ 0x47) ∨ (0x50 ≤ a.toNat ∧ a.toNat ≤ 0x55)) →
    perform (.host (busWord false a 0)) s = .next t → t.busRdata = some v →
    perform (.host (busWord true a v)) t = .next { s with busRdata := none }
end

