-- ==== Sys2Proof/Laws/Operands.lean ====
section
/-! SUPPORT. What the primitives and the operand forms answer. -/

namespace Sys2Proof.Machine

/-- Writing one bit of a bit set changes that bit alone. -/
@[simp] theorem getLsbD_setBit {w : Nat} (x : BitVec w) (i j : Nat) (b : Bool) :
    (setBit x i b).getLsbD j = if i = j ∧ j < w then b else x.getLsbD j := by
  have hp : (BitVec.ofNat w (2 ^ i)).getLsbD j = (decide (j < w) && decide (i = j)) := by
    rw [BitVec.getLsbD_ofNat, Nat.testBit_two_pow]
  unfold setBit
  generalize BitVec.ofNat w (2 ^ i) = m at hp ⊢
  by_cases hj : j < w
  · cases b <;> by_cases hij : i = j <;>
      simp [BitVec.getLsbD_or, BitVec.getLsbD_and, BitVec.getLsbD_not, hp, hj, hij, -BitVec.getLsbD_eq_getElem]
  · cases b <;> simp [hj, BitVec.getLsbD_of_ge _ _ (Nat.le_of_not_lt hj)]

@[simp] theorem getElem_setBit {w : Nat} (x : BitVec w) (i j : Nat) (b : Bool) (hj : j < w) :
    (setBit x i b)[j] = if i = j then b else x[j] := by
  have h := getLsbD_setBit x i j b
  simpa [hj] using h

/-- A clamp stays between its bounds. -/
theorem clamp_mem (v lo hi : Int) (h : lo ≤ hi) : lo ≤ clamp v lo hi ∧ clamp v lo hi ≤ hi := by
  unfold clamp; omega

/-- A clamp leaves a value between its bounds alone. -/
theorem clamp_of_mem (v lo hi : Int) (h1 : lo ≤ v) (h2 : v ≤ hi) : clamp v lo hi = v := by
  unfold clamp; omega

theorem clamp_of_le (v lo hi : Int) (h1 : v ≤ lo) (h : lo ≤ hi) : clamp v lo hi = lo := by
  unfold clamp; omega

theorem clamp_of_ge (v lo hi : Int) (h1 : hi ≤ v) : clamp v lo hi = hi := by
  unfold clamp; omega

theorem sat16_mem (v : Int) : -32768 ≤ sat16 v ∧ sat16 v ≤ 32767 := clamp_mem v _ _ (by decide)

/-- A shift right moves a value towards 0 or -1, so it keeps every range that holds both. -/
theorem asr_mem (v : Int) (s : Nat) (b : Int) (h1 : -b ≤ v) (h2 : v ≤ b) (hb : 1 ≤ b) :
    -b ≤ asr v s ∧ asr v s ≤ b := by
  unfold asr
  have hp : (0 : Int) < 2 ^ s := by positivity
  have h1p : (1 : Int) ≤ 2 ^ s := hp
  constructor
  · rw [Int.le_ediv_iff_mul_le hp]
    nlinarith
  · by_cases hv : 0 ≤ v
    · exact le_trans (Int.ediv_le_self _ hv) h2
    · have : v / 2 ^ s < 0 := Int.ediv_neg_of_neg_of_pos (by omega) hp
      omega

/-- An s16 value is its own pattern. -/
theorem wrap16_toInt (v : Int) (h1 : -32768 ≤ v) (h2 : v ≤ 32767) : (wrap16 v).toInt = v := by
  unfold wrap16
  rw [BitVec.toInt_ofInt, Int.bmod_def]
  norm_num
  omega

/-- A u16 value is its own pattern. -/
theorem wrap16_toNat (v : Int) (h1 : 0 ≤ v) (h2 : v < 65536) : ((wrap16 v).toNat : Int) = v := by
  unfold wrap16
  rw [BitVec.toNat_ofInt]
  omega

theorem warlLow_toNat (v : Reg) : (warlLow v).toNat = min v.toNat 49535 := by
  unfold warlLow
  rw [BitVec.toNat_ofNat]
  omega

theorem warlDiv_ne_zero (v : Reg) : warlDiv v ≠ 0#8 := by
  unfold warlDiv
  dsimp only
  split
  · decide
  · assumption

theorem warlDiv_of_low_ne_zero (v : Reg) (h : v.extractLsb' 0 8 ≠ 0#8) : warlDiv v = v.extractLsb' 0 8 := by
  simp [warlDiv, h]

@[simp] theorem getLsbD_lowBits (w : Nat) (v : Reg) (i : Nat) :
    (lowBits w v).getLsbD i = (decide (i < w) && v.getLsbD i) := by
  simp [lowBits]

@[simp] theorem lowBits_zext16 {w : Nat} (x : BitVec w) (h : w ≤ 16) : lowBits w (zext16 x) = x := by
  apply BitVec.eq_of_getLsbD_eq
  intro i hi
  simp [lowBits, zext16, hi, Nat.lt_of_lt_of_le hi h]

theorem zext16_toNat {w : Nat} (x : BitVec w) (h : w ≤ 16) : (zext16 x).toNat = x.toNat := by
  simp only [zext16, BitVec.toNat_setWidth]
  exact Nat.mod_eq_of_lt (Nat.lt_of_lt_of_le x.isLt (Nat.pow_le_pow_right (by decide) h))

/-- The nibble of a slot names that slot. -/
@[simp] theorem nibbleSlot_slotNibble (o : Slot) : nibbleSlot (slotNibble o) = some o := by
  revert o; decide

theorem nibbleSlot_eq_some (x : BitVec 4) (o : Slot) : nibbleSlot x = some o ↔ x.toNat = o.val := by
  unfold nibbleSlot
  split
  · simp [Fin.ext_iff]
  · simp; omega

theorem indexSlot_eq_some (k : BitVec 3) (o : Slot) : indexSlot k = some o ↔ k.toNat = o.val := by
  unfold indexSlot
  split
  · simp [Fin.ext_iff]
  · simp; omega

@[simp] theorem indexChan_val (n : BitVec 2) : (indexChan n).val = n.toNat := rfl

end Sys2Proof.Machine
end

