-- ==== Sys2Proof/Laws/State.lean ====
section
/-! SUPPORT. The shared updates of State, one lemma for each field and update. -/

namespace Sys2Proof.Machine

/-! A read's answer -/

@[simp] theorem reply_tcnt (v : Reg) (s : State) : (reply v s).tcnt = s.tcnt := rfl
@[simp] theorem reply_irqPend (v : Reg) (s : State) : (reply v s).irqPend = s.irqPend := rfl
@[simp] theorem reply_irqEn (v : Reg) (s : State) : (reply v s).irqEn = s.irqEn := rfl
@[simp] theorem reply_busErr (v : Reg) (s : State) : (reply v s).busErr = s.busErr := rfl
@[simp] theorem reply_cap (v : Reg) (s : State) : (reply v s).cap = s.cap := rfl
@[simp] theorem reply_pid (v : Reg) (s : State) : (reply v s).pid = s.pid := rfl
@[simp] theorem reply_syn (v : Reg) (s : State) : (reply v s).syn = s.syn := rfl
@[simp] theorem reply_busRdata (v : Reg) (s : State) : (reply v s).busRdata = some v := rfl
@[simp] theorem reply_schedule (v : Reg) (s : State) : (reply v s).schedule = s.schedule := rfl
@[simp] theorem reply_drawIx (v : Reg) (s : State) : (reply v s).drawIx = s.drawIx := rfl

/-! A step that returns nothing -/

@[simp] theorem silent_tcnt (s : State) : (silent s).tcnt = s.tcnt := rfl
@[simp] theorem silent_irqPend (s : State) : (silent s).irqPend = s.irqPend := rfl
@[simp] theorem silent_irqEn (s : State) : (silent s).irqEn = s.irqEn := rfl
@[simp] theorem silent_busErr (s : State) : (silent s).busErr = s.busErr := rfl
@[simp] theorem silent_cap (s : State) : (silent s).cap = s.cap := rfl
@[simp] theorem silent_pid (s : State) : (silent s).pid = s.pid := rfl
@[simp] theorem silent_syn (s : State) : (silent s).syn = s.syn := rfl
@[simp] theorem silent_busRdata (s : State) : (silent s).busRdata = none := rfl
@[simp] theorem silent_schedule (s : State) : (silent s).schedule = s.schedule := rfl
@[simp] theorem silent_drawIx (s : State) : (silent s).drawIx = s.drawIx := rfl

/-! A pending bit set -/

@[simp] theorem raiseIrq_tcnt (q : IrqSource) (s : State) : (raiseIrq q s).tcnt = s.tcnt := rfl
@[simp] theorem raiseIrq_irqPend (q : IrqSource) (s : State) : (raiseIrq q s).irqPend = setBit s.irqPend (irqBit q) true := rfl
@[simp] theorem raiseIrq_irqEn (q : IrqSource) (s : State) : (raiseIrq q s).irqEn = s.irqEn := rfl
@[simp] theorem raiseIrq_busErr (q : IrqSource) (s : State) : (raiseIrq q s).busErr = s.busErr := rfl
@[simp] theorem raiseIrq_cap (q : IrqSource) (s : State) : (raiseIrq q s).cap = s.cap := rfl
@[simp] theorem raiseIrq_pid (q : IrqSource) (s : State) : (raiseIrq q s).pid = s.pid := rfl
@[simp] theorem raiseIrq_syn (q : IrqSource) (s : State) : (raiseIrq q s).syn = s.syn := rfl
@[simp] theorem raiseIrq_busRdata (q : IrqSource) (s : State) : (raiseIrq q s).busRdata = s.busRdata := rfl
@[simp] theorem raiseIrq_schedule (q : IrqSource) (s : State) : (raiseIrq q s).schedule = s.schedule := rfl
@[simp] theorem raiseIrq_drawIx (q : IrqSource) (s : State) : (raiseIrq q s).drawIx = s.drawIx := rfl

/-! ResetState() -/

@[simp] theorem resetState_tcnt (s : State) : (resetState s).tcnt = 0 := rfl
@[simp] theorem resetState_irqPend (s : State) : (resetState s).irqPend = 0 := rfl
@[simp] theorem resetState_irqEn (s : State) : (resetState s).irqEn = 0 := rfl
@[simp] theorem resetState_busErr (s : State) : (resetState s).busErr = false := rfl
@[simp] theorem resetState_cap (s : State) : (resetState s).cap = resetCap s.cap := rfl
@[simp] theorem resetState_pid (s : State) : (resetState s).pid = resetPid := rfl
@[simp] theorem resetState_syn (s : State) : (resetState s).syn = resetSyn := rfl
@[simp] theorem resetState_busRdata (s : State) : (resetState s).busRdata = none := rfl
@[simp] theorem resetState_schedule (s : State) : (resetState s).schedule = s.schedule := rfl
@[simp] theorem resetState_drawIx (s : State) : (resetState s).drawIx = s.drawIx := rfl

/-! What ResetState() leaves alone in the capture unit (70_reset_and_hazards.md R251) -/

@[simp] theorem resetCap_width (c : Cap) : (resetCap c).width = c.width := rfl
@[simp] theorem resetCap_start (c : Cap) : (resetCap c).start = c.start := rfl

/-! The pending bits are distinct and fill IRQ_PEND -/

theorem irqBit_lt (q : IrqSource) : irqBit q < 11 := by
  cases q <;> simp only [irqBit] <;> omega

theorem irqBit_injective (q r : IrqSource) (h : irqBit q = irqBit r) : q = r := by
  cases q <;> cases r <;> simp only [irqBit] at h <;> first
    | rfl
    | (exfalso; omega)
    | (congr 1; apply Fin.ext; omega)

/-- A source sets its own pending bit and no other. -/
theorem getLsbD_raiseIrq (q : IrqSource) (s : State) (b : Nat) :
    (raiseIrq q s).irqPend.getLsbD b = (decide (b = irqBit q) || s.irqPend.getLsbD b) := by
  have h := irqBit_lt q
  simp only [raiseIrq_irqPend, getLsbD_setBit]
  by_cases hb : b = irqBit q
  · subst hb; simp [h]
  · simp [hb, Ne.symm hb]

/-! The illegal transaction -/

@[simp] theorem illegalTransaction_busErr (t : BusWord) (s : State) : (illegalTransaction t s).busErr = true := by
  unfold illegalTransaction; split <;> rfl

@[simp] theorem illegalTransaction_irqPend (t : BusWord) (s : State) :
    (illegalTransaction t s).irqPend = setBit s.irqPend 10 true := by
  unfold illegalTransaction; split <;> rfl

@[simp] theorem illegalTransaction_busRdata (t : BusWord) (s : State) :
    (illegalTransaction t s).busRdata = if fieldW t then none else some 0#16 := by
  unfold illegalTransaction; split <;> rfl

@[simp] theorem illegalTransaction_tcnt (t : BusWord) (s : State) : (illegalTransaction t s).tcnt = s.tcnt := by
  unfold illegalTransaction; split <;> rfl

@[simp] theorem illegalTransaction_irqEn (t : BusWord) (s : State) : (illegalTransaction t s).irqEn = s.irqEn := by
  unfold illegalTransaction; split <;> rfl

@[simp] theorem illegalTransaction_cap (t : BusWord) (s : State) : (illegalTransaction t s).cap = s.cap := by
  unfold illegalTransaction; split <;> rfl

@[simp] theorem illegalTransaction_pid (t : BusWord) (s : State) : (illegalTransaction t s).pid = s.pid := by
  unfold illegalTransaction; split <;> rfl

@[simp] theorem illegalTransaction_syn (t : BusWord) (s : State) : (illegalTransaction t s).syn = s.syn := by
  unfold illegalTransaction; split <;> rfl

@[simp] theorem illegalTransaction_schedule (t : BusWord) (s : State) : (illegalTransaction t s).schedule = s.schedule := by
  unfold illegalTransaction; split <;> rfl

@[simp] theorem illegalTransaction_drawIx (t : BusWord) (s : State) : (illegalTransaction t s).drawIx = s.drawIx := by
  unfold illegalTransaction; split <;> rfl

end Sys2Proof.Machine
end

