-- ==== Sys2Proof/Laws/Capture.lean ====
section
/-! SUPPORT. What one round of the capture loop does, said once: to its own channel, and to nothing else. -/

namespace Sys2Proof.Machine

/-- Channel n records a rising edge at this tick (41_capture.md R120, R121). -/
def recordsRise (levels : BitVec 4) (n : Chan) (s : State) : Bool :=
  s.cap.en.getLsbD n.val && risesOn levels n s

/-- Channel n publishes a width at this tick (41_capture.md R120, R122, R123). -/
def publishes (levels : BitVec 4) (n : Chan) (s : State) : Bool :=
  s.cap.en.getLsbD n.val && fallsOn levels n s && s.cap.riseSeen.getLsbD n.val

/-- A channel does not rise and fall at one tick. -/
theorem not_risesOn_of_fallsOn (levels : BitVec 4) (n : Chan) (s : State) (h : fallsOn levels n s = true) :
    risesOn levels n s = false := by
  simp only [fallsOn, risesOn, Bool.and_eq_true, Bool.not_eq_true'] at *
  simp [h.1]

/-- A channel does not record a rise and publish at one tick. -/
theorem not_publishes_of_recordsRise (levels : BitVec 4) (n : Chan) (s : State) (h : recordsRise levels n s = true) :
    publishes levels n s = false := by
  simp only [recordsRise, Bool.and_eq_true] at h
  cases hf : fallsOn levels n s
  · simp [publishes, hf]
  · simp [not_risesOn_of_fallsOn levels n s hf] at h

/-- The state one round of the loop leaves, with no count: PREV always, then a rising edge, a publish, or nothing. -/
theorem captureChannel_eq (levels : BitVec 4) (acc : State × Nat) (n : Chan) :
    captureChannel levels acc n =
      let s1 : State := { acc.1 with cap.prev := setBit acc.1.cap.prev n.val (levels.getLsbD n.val) }
      if recordsRise levels n acc.1 then (risingEdge n s1, acc.2)
      else if publishes levels n acc.1 then (publish n s1, acc.2 + 1)
      else (s1, acc.2) := by
  obtain ⟨s, k⟩ := acc
  simp only [captureChannel, recordsRise, publishes]
  by_cases he : s.cap.en.getLsbD n.val = true
  · by_cases hf : fallsOn levels n s = true
    · simp [he, hf, not_risesOn_of_fallsOn levels n s hf]
    · by_cases hr : risesOn levels n s = true <;> simp_all
  · simp_all

/-- A round of the loop leaves everything but PREV, RISE_SEEN, VALID, START, WIDTH and IRQ_PEND alone. -/
theorem captureChannel_frame (levels : BitVec 4) (acc : State × Nat) (n : Chan) :
    let t := (captureChannel levels acc n).1
    t.tcnt = acc.1.tcnt ∧ t.irqEn = acc.1.irqEn ∧ t.busErr = acc.1.busErr ∧ t.pid = acc.1.pid ∧ t.syn = acc.1.syn ∧
      t.busRdata = acc.1.busRdata ∧ t.schedule = acc.1.schedule ∧ t.drawIx = acc.1.drawIx ∧
      t.cap.en = acc.1.cap.en ∧ t.cap.fence = acc.1.cap.fence ∧ t.cap.center = acc.1.cap.center := by
  rw [captureChannel_eq]
  dsimp only
  split
  · exact ⟨rfl, rfl, rfl, rfl, rfl, rfl, rfl, rfl, rfl, rfl, rfl⟩
  · split <;> exact ⟨rfl, rfl, rfl, rfl, rfl, rfl, rfl, rfl, rfl, rfl, rfl⟩

/-- A round of the loop for channel n leaves every other channel alone. -/
theorem captureChannel_other (levels : BitVec 4) (acc : State × Nat) (n m : Chan) (h : n ≠ m) :
    let t := (captureChannel levels acc n).1
    t.cap.prev.getLsbD m.val = acc.1.cap.prev.getLsbD m.val ∧
      t.cap.riseSeen.getLsbD m.val = acc.1.cap.riseSeen.getLsbD m.val ∧
      t.cap.valid.getLsbD m.val = acc.1.cap.valid.getLsbD m.val ∧
      t.cap.start[m] = acc.1.cap.start[m] ∧ t.cap.width[m] = acc.1.cap.width[m] := by
  have hv : n.val ≠ m.val := fun e => h (Fin.ext e)
  rw [captureChannel_eq]
  dsimp only
  split
  · simp [risingEdge, raiseIrq, hv, -BitVec.getLsbD_eq_getElem]
  · split
    · simp [publish, raiseIrq, hv, -BitVec.getLsbD_eq_getElem]
    · simp [hv, -BitVec.getLsbD_eq_getElem]

/-- A round of the loop for channel n, on channel n: PREV follows the line; a recorded rise stamps START, a publish
writes WIDTH. -/
theorem captureChannel_self (levels : BitVec 4) (acc : State × Nat) (n : Chan) :
    let t := (captureChannel levels acc n).1
    t.cap.prev.getLsbD n.val = levels.getLsbD n.val ∧
      t.cap.riseSeen.getLsbD n.val = (recordsRise levels n acc.1 || acc.1.cap.riseSeen.getLsbD n.val) ∧
      t.cap.valid.getLsbD n.val = (publishes levels n acc.1 || acc.1.cap.valid.getLsbD n.val) ∧
      t.cap.start[n] = (if recordsRise levels n acc.1 then acc.1.tcnt else acc.1.cap.start[n]) ∧
      t.cap.width[n] =
        (if publishes levels n acc.1 then acc.1.tcnt - acc.1.cap.start[n] else acc.1.cap.width[n]) := by
  have hx := not_publishes_of_recordsRise levels n acc.1
  rw [captureChannel_eq]
  dsimp only
  split
  · rename_i hr
    simp [risingEdge, raiseIrq, hr, hx hr, -BitVec.getLsbD_eq_getElem]
  · split
    · rename_i hr hp
      simp [publish, raiseIrq, hr, hp, -BitVec.getLsbD_eq_getElem]
    · rename_i hr hp
      simp [hr, hp, -BitVec.getLsbD_eq_getElem]

/-- A round of the loop raises RISE[n] for a recorded rise and FALL[n] for a publish, and clears nothing. -/
theorem captureChannel_irqPend (levels : BitVec 4) (acc : State × Nat) (n : Chan) (b : Nat) :
    (captureChannel levels acc n).1.irqPend.getLsbD b =
      (acc.1.irqPend.getLsbD b || (recordsRise levels n acc.1 && decide (b = 4 + n.val)) ||
        (publishes levels n acc.1 && decide (b = n.val))) := by
  have hx := not_publishes_of_recordsRise levels n acc.1
  rw [captureChannel_eq]
  dsimp only
  split
  · rename_i hr
    simp only [risingEdge, getLsbD_raiseIrq, irqBit, hr, hx hr, Bool.true_and, Bool.false_and, Bool.or_false]
    exact Bool.or_comm _ _
  · split
    · rename_i hr hp
      simp only [publish, getLsbD_raiseIrq, irqBit, hr, hp, Bool.true_and, Bool.false_and, Bool.or_false]
      exact Bool.or_comm _ _
    · rename_i hr hp
      simp [hr, hp]

/-- The count of one round. -/
theorem captureChannel_count (levels : BitVec 4) (acc : State × Nat) (n : Chan) :
    (captureChannel levels acc n).2 = acc.2 + (if publishes levels n acc.1 then 1 else 0) := by
  have hx := not_publishes_of_recordsRise levels n acc.1
  rw [captureChannel_eq]
  dsimp only
  split
  · rename_i hr
    simp [hx hr]
  · split <;> simp

/-- What a channel does depends on its own line and state alone. -/
theorem records_congr (levels : BitVec 4) (n : Chan) (s t : State)
    (he : t.cap.en = s.cap.en) (hp : t.cap.prev.getLsbD n.val = s.cap.prev.getLsbD n.val)
    (hr : t.cap.riseSeen.getLsbD n.val = s.cap.riseSeen.getLsbD n.val) :
    recordsRise levels n t = recordsRise levels n s ∧ publishes levels n t = publishes levels n s := by
  simp only [recordsRise, publishes, risesOn, fallsOn, he, hp, hr, and_self]

/-- The channel loop over a part of the channels: a channel not visited is left alone, and so is all the loop does not
write. -/
theorem captureLoop_other (levels : BitVec 4) (l : List Chan) (acc : State × Nat) (m : Chan) (h : m ∉ l) :
    let t := (l.foldl (captureChannel levels) acc).1
    t.cap.prev.getLsbD m.val = acc.1.cap.prev.getLsbD m.val ∧
      t.cap.riseSeen.getLsbD m.val = acc.1.cap.riseSeen.getLsbD m.val ∧
      t.cap.valid.getLsbD m.val = acc.1.cap.valid.getLsbD m.val ∧
      t.cap.start[m] = acc.1.cap.start[m] ∧ t.cap.width[m] = acc.1.cap.width[m] := by
  induction l generalizing acc with
  | nil => exact ⟨rfl, rfl, rfl, rfl, rfl⟩
  | cons n l ih =>
    simp only [List.mem_cons, not_or] at h
    obtain ⟨h1, h2, h3, h4, h5⟩ := captureChannel_other levels acc n m (Ne.symm h.1)
    obtain ⟨i1, i2, i3, i4, i5⟩ := ih (captureChannel levels acc n) h.2
    exact ⟨i1.trans h1, i2.trans h2, i3.trans h3, i4.trans h4, i5.trans h5⟩

theorem captureLoop_frame (levels : BitVec 4) (l : List Chan) (acc : State × Nat) :
    let t := (l.foldl (captureChannel levels) acc).1
    t.tcnt = acc.1.tcnt ∧ t.irqEn = acc.1.irqEn ∧ t.busErr = acc.1.busErr ∧ t.pid = acc.1.pid ∧ t.syn = acc.1.syn ∧
      t.busRdata = acc.1.busRdata ∧ t.schedule = acc.1.schedule ∧ t.drawIx = acc.1.drawIx ∧
      t.cap.en = acc.1.cap.en ∧ t.cap.fence = acc.1.cap.fence ∧ t.cap.center = acc.1.cap.center := by
  induction l generalizing acc with
  | nil => exact ⟨rfl, rfl, rfl, rfl, rfl, rfl, rfl, rfl, rfl, rfl, rfl⟩
  | cons n l ih =>
    obtain ⟨h1, h2, h3, h4, h5, h6, h7, h8, h9, h10, h11⟩ := captureChannel_frame levels acc n
    obtain ⟨i1, i2, i3, i4, i5, i6, i7, i8, i9, i10, i11⟩ := ih (captureChannel levels acc n)
    exact ⟨i1.trans h1, i2.trans h2, i3.trans h3, i4.trans h4, i5.trans h5, i6.trans h6, i7.trans h7, i8.trans h8,
      i9.trans h9, i10.trans h10, i11.trans h11⟩

/-- CaptureTick writes the capture unit and IRQ_PEND alone, and of the capture unit neither EN nor CENTER. -/
theorem captureTick_frame (levels : BitVec 4) (s : State) :
    let t := captureTick levels s
    t.tcnt = s.tcnt ∧ t.irqEn = s.irqEn ∧ t.busErr = s.busErr ∧ t.pid = s.pid ∧ t.syn = s.syn ∧
      t.busRdata = s.busRdata ∧ t.schedule = s.schedule ∧ t.drawIx = s.drawIx ∧
      t.cap.en = s.cap.en ∧ t.cap.center = s.cap.center := by
  have h := captureLoop_frame levels allChans (s, 0)
  unfold captureTick captureChannels
  generalize allChans.foldl (captureChannel levels) (s, 0) = r at h ⊢
  obtain ⟨h1, h2, h3, h4, h5, h6, h7, h8, h9, -, h11⟩ := h
  exact ⟨h1, h2, h3, h4, h5, h6, h7, h8, h9, h11⟩

/-- CaptureTick on one channel (41_capture.md R120 to R123). -/
theorem captureTick_chan (levels : BitVec 4) (s : State) (n : Chan) :
    let t := captureTick levels s
    t.cap.prev.getLsbD n.val = levels.getLsbD n.val ∧
      t.cap.riseSeen.getLsbD n.val = (recordsRise levels n s || s.cap.riseSeen.getLsbD n.val) ∧
      t.cap.valid.getLsbD n.val = (publishes levels n s || s.cap.valid.getLsbD n.val) ∧
      t.cap.start[n] = (if recordsRise levels n s then s.tcnt else s.cap.start[n]) ∧
      t.cap.width[n] = (if publishes levels n s then s.tcnt - s.cap.start[n] else s.cap.width[n]) := by
  obtain ⟨l1, l2, hl, hn1, hn2⟩ : ∃ l1 l2 : List Chan, allChans = l1 ++ n :: l2 ∧ n ∉ l1 ∧ n ∉ l2 := by
    fin_cases n
    · exact ⟨[], [1, 2, 3], rfl, by decide, by decide⟩
    · exact ⟨[0], [2, 3], rfl, by decide, by decide⟩
    · exact ⟨[0, 1], [3], rfl, by decide, by decide⟩
    · exact ⟨[0, 1, 2], [], rfl, by decide, by decide⟩
  obtain ⟨f1, -, -, -, -, -, -, -, f9, -, -⟩ := captureLoop_frame levels l1 (s, 0)
  obtain ⟨a1, a2, a3, a4, a5⟩ := captureLoop_other levels l1 (s, 0) n hn1
  have hloop : allChans.foldl (captureChannel levels) (s, 0) =
      l2.foldl (captureChannel levels) (captureChannel levels (l1.foldl (captureChannel levels) (s, 0)) n) := by
    rw [hl, List.foldl_append, List.foldl_cons]
  unfold captureTick captureChannels
  generalize l1.foldl (captureChannel levels) (s, 0) = r at *
  obtain ⟨b1, b2, b3, b4, b5⟩ := captureChannel_self levels r n
  obtain ⟨hr, hq⟩ := records_congr levels n s r.1 f9 a1 a2
  rw [hr, a2] at b2
  rw [hq, a3] at b3
  rw [hr, f1, a4] at b4
  rw [hq, f1, a4, a5] at b5
  generalize captureChannel levels r n = q at *
  obtain ⟨c1, c2, c3, c4, c5⟩ := captureLoop_other levels l2 q n hn2
  rw [hloop]
  generalize l2.foldl (captureChannel levels) q = u at *
  exact ⟨c1.trans b1, c2.trans b2, c3.trans b3, c4.trans b4, c5.trans b5⟩

/-- What the channel loop does to IRQ_PEND and to the count, over a list of distinct channels. -/
theorem captureLoop_irqPend (levels : BitVec 4) (l : List Chan) (hd : l.Nodup) (acc : State × Nat) (b : Nat) :
    let r := l.foldl (captureChannel levels) acc
    r.1.irqPend.getLsbD b = (acc.1.irqPend.getLsbD b ||
        l.any fun n => (recordsRise levels n acc.1 && decide (b = 4 + n.val)) ||
          (publishes levels n acc.1 && decide (b = n.val))) ∧
      r.2 = acc.2 + (l.filter fun n => publishes levels n acc.1).length := by
  induction l generalizing acc with
  | nil => simp
  | cons n l ih =>
    rw [List.nodup_cons] at hd
    obtain ⟨i1, i2⟩ := ih hd.2 (captureChannel levels acc n)
    have hcong : ∀ m ∈ l, recordsRise levels m (captureChannel levels acc n).1 = recordsRise levels m acc.1 ∧
        publishes levels m (captureChannel levels acc n).1 = publishes levels m acc.1 := by
      intro m hm
      have hne : n ≠ m := fun e => hd.1 (e ▸ hm)
      obtain ⟨-, -, -, -, -, -, -, -, h9, -, -⟩ := captureChannel_frame levels acc n
      obtain ⟨o1, o2, -, -, -⟩ := captureChannel_other levels acc n m hne
      exact records_congr levels m _ _ h9 o1 o2
    constructor
    · rw [List.foldl_cons, i1, captureChannel_irqPend, List.any_cons]
      have : (l.any fun m => (recordsRise levels m (captureChannel levels acc n).1 && decide (b = 4 + m.val)) ||
          (publishes levels m (captureChannel levels acc n).1 && decide (b = m.val))) =
          (l.any fun m => (recordsRise levels m acc.1 && decide (b = 4 + m.val)) ||
          (publishes levels m acc.1 && decide (b = m.val))) := by
        rw [Bool.eq_iff_iff, List.any_eq_true, List.any_eq_true]
        constructor <;> rintro ⟨m, hm, h⟩ <;> refine ⟨m, hm, ?_⟩
        · rwa [(hcong m hm).1, (hcong m hm).2] at h
        · rwa [(hcong m hm).1, (hcong m hm).2]
      rw [this]
      simp only [Bool.or_assoc]
    · rw [List.foldl_cons, i2, captureChannel_count]
      have : (l.filter fun m => publishes levels m (captureChannel levels acc n).1) =
          l.filter fun m => publishes levels m acc.1 := by
        apply List.filter_congr
        intro m hm
        exact (hcong m hm).2
      rw [this]
      by_cases hp : publishes levels n acc.1 = true
      · simp [hp]; omega
      · simp [hp]

/-- CaptureTick on IRQ_PEND: RISE and FALL of each channel that acts, and nothing cleared (41_capture.md R121, R122). -/
theorem captureTick_irqPend (levels : BitVec 4) (s : State) (b : Nat) :
    (captureTick levels s).irqPend.getLsbD b = (s.irqPend.getLsbD b ||
      allChans.any fun n => (recordsRise levels n s && decide (b = 4 + n.val)) ||
        (publishes levels n s && decide (b = n.val))) :=
  (captureLoop_irqPend levels allChans (by decide) (s, 0) b).1

/-- CaptureTick on FENCE: it advances by the number of publishes (41_capture.md R124). -/
theorem captureTick_fence (levels : BitVec 4) (s : State) :
    (captureTick levels s).cap.fence =
      s.cap.fence + BitVec.ofNat 16 (allChans.filter fun n => publishes levels n s).length := by
  have h := (captureLoop_irqPend levels allChans (by decide) (s, 0) 0).2
  obtain ⟨-, -, -, -, -, -, -, -, -, hf, -⟩ := captureLoop_frame levels allChans (s, 0)
  simp only [captureTick, captureChannels]
  rw [h, hf, Nat.zero_add]

end Sys2Proof.Machine
end

