-- ==== Sys2Proof/Laws/Synth.lean ====
section
/-! SUPPORT. What one round of the synthesizer's two output loops does, said once: to its own output, and to nothing
else. -/

namespace Sys2Proof.Machine

/-- A round of FrameStart's loop writes ACTIVE, ON_AT, OFF_AT and LEVEL alone. -/
theorem openOutput_frame (d : Draws) (y : Syn) (o : Slot) :
    ∃ active level : BitVec 6, ∃ onAt offAt : Vector Nat 6,
      openOutput d y o = { y with active := active, level := level, onAt := onAt, offAt := offAt } := by
  unfold openOutput
  split
  · split <;> exact ⟨_, _, _, _, rfl⟩
  · exact ⟨_, _, _, _, rfl⟩

/-- A round of FrameStart's loop for output o leaves every other output alone. -/
theorem openOutput_other (d : Draws) (y : Syn) (o p : Slot) (h : o ≠ p) :
    let z := openOutput d y o
    z.active.getLsbD p.val = y.active.getLsbD p.val ∧ z.level.getLsbD p.val = y.level.getLsbD p.val ∧
      z.onAt[p] = y.onAt[p] ∧ z.offAt[p] = y.offAt[p] := by
  have hv : o.val ≠ p.val := fun e => h (Fin.ext e)
  unfold openOutput
  dsimp only
  split
  · split
    · simp [hv, -BitVec.getLsbD_eq_getElem]
    · refine ⟨by simp [hv, -BitVec.getLsbD_eq_getElem], ?_, by simp [hv],
        by simp [hv]⟩
      dsimp only
      split <;> simp [hv, -BitVec.getLsbD_eq_getElem]
  · simp [hv, -BitVec.getLsbD_eq_getElem]

/-- A round of FrameStart's loop on its own output: a pulse begins on a compare output at once, on a polled one after
its delay; otherwise the level and the transition ticks are held (43_synth.md R183 to R187). -/
theorem openOutput_self (d : Draws) (y : Syn) (o : Slot) :
    let z := openOutput d y o
    z.active.getLsbD o.val = pulsesNow y o ∧
      z.onAt[o] = (if pulsesNow y o then (if o.val ≤ 3 then 0 else drawOn d o) else y.onAt[o]) ∧
      z.offAt[o] = (if pulsesNow y o then
        (if o.val ≤ 3 then y.act[o].toNat else y.act[o].toNat + drawOff d o) else y.offAt[o]) ∧
      z.level.getLsbD o.val =
        (y.level.getLsbD o.val || (pulsesNow y o && decide (o.val ≤ 3 ∨ drawOn d o = 0))) := by
  unfold openOutput
  dsimp only
  by_cases hp : pulsesNow y o = true
  · by_cases h3 : o.val ≤ 3
    · simp [hp, h3, -BitVec.getLsbD_eq_getElem]
    · by_cases hd : drawOn d o = 0 <;> simp [hp, h3, hd, -BitVec.getLsbD_eq_getElem]
  · simp [hp, -BitVec.getLsbD_eq_getElem]

/-- A round of SynthTick's loop on the levels: an active output goes low at its turn-off tick, high at its turn-on
tick, and keeps its level at every other one; no other output changes (43_synth.md R182). -/
theorem runOutput_getLsbD (el : Nat) (y : Syn) (level : BitVec 6) (o p : Slot) :
    (runOutput el y level o).getLsbD p.val =
      if o = p ∧ y.active.getLsbD p.val = true then
        (if el = y.offAt[p] then false else if el = y.onAt[p] then true else level.getLsbD p.val)
      else level.getLsbD p.val := by
  unfold runOutput
  by_cases hop : o = p
  · subst hop
    by_cases ha : y.active.getLsbD o.val = true
    · simp only [ha, if_true, true_and]
      split <;> split <;> simp [-BitVec.getLsbD_eq_getElem]
    · simp only [ha, Bool.false_eq_true, and_false, if_false]
  · have hv : o.val ≠ p.val := fun e => hop (Fin.ext e)
    simp only [hop, false_and, if_false]
    split
    · split <;> split <;> simp [hv, -BitVec.getLsbD_eq_getElem]
    · rfl

/-- The whole loop of SynthTick on one output (43_synth.md R182). -/
theorem runOutputs_getLsbD (el : Nat) (y : Syn) (p : Slot) :
    (runOutputs el y).getLsbD p.val =
      if y.active.getLsbD p.val = true then
        (if el = y.offAt[p] then false else if el = y.onAt[p] then true else y.level.getLsbD p.val)
      else y.level.getLsbD p.val := by
  simp only [runOutputs, allSlots, List.foldl_cons, List.foldl_nil, runOutput_getLsbD]
  fin_cases p <;> simp [-BitVec.getLsbD_eq_getElem]

/-- FrameStart's output loop writes ACTIVE, ON_AT, OFF_AT and LEVEL alone. -/
theorem openLoop_frame (d : Draws) (l : List Slot) (y : Syn) :
    ∃ active level : BitVec 6, ∃ onAt offAt : Vector Nat 6,
      l.foldl (openOutput d) y = { y with active := active, level := level, onAt := onAt, offAt := offAt } := by
  induction l generalizing y with
  | nil => exact ⟨y.active, y.level, y.onAt, y.offAt, rfl⟩
  | cons o l ih =>
    obtain ⟨a, v, f, g, h⟩ := openOutput_frame d y o
    obtain ⟨a', v', f', g', h'⟩ := ih (openOutput d y o)
    exact ⟨a', v', f', g', by rw [List.foldl_cons, h', h]⟩

/-- Which outputs get a pulse does not depend on what the loop has done so far. -/
theorem pulsesNow_openLoop (d : Draws) (l : List Slot) (y : Syn) (p : Slot) :
    pulsesNow (l.foldl (openOutput d) y) p = pulsesNow y p := by
  obtain ⟨a, v, f, g, h⟩ := openLoop_frame d l y
  rw [h]; rfl

/-- A part of FrameStart's loop that does not visit output p leaves it alone. -/
theorem openLoop_other (d : Draws) (l : List Slot) (y : Syn) (p : Slot) (h : p ∉ l) :
    let z := l.foldl (openOutput d) y
    z.active.getLsbD p.val = y.active.getLsbD p.val ∧ z.level.getLsbD p.val = y.level.getLsbD p.val ∧
      z.onAt[p] = y.onAt[p] ∧ z.offAt[p] = y.offAt[p] := by
  induction l generalizing y with
  | nil => exact ⟨rfl, rfl, rfl, rfl⟩
  | cons o l ih =>
    simp only [List.mem_cons, not_or] at h
    obtain ⟨h1, h2, h3, h4⟩ := openOutput_other d y o p (Ne.symm h.1)
    obtain ⟨i1, i2, i3, i4⟩ := ih (openOutput d y o) h.2
    exact ⟨i1.trans h1, i2.trans h2, i3.trans h3, i4.trans h4⟩

/-- The whole loop of FrameStart on one output (43_synth.md R183 to R187). -/
theorem openOutputs_self (d : Draws) (y : Syn) (p : Slot) :
    let z := openOutputs d y
    z.active.getLsbD p.val = pulsesNow y p ∧
      z.onAt[p] = (if pulsesNow y p then (if p.val ≤ 3 then 0 else drawOn d p) else y.onAt[p]) ∧
      z.offAt[p] = (if pulsesNow y p then
        (if p.val ≤ 3 then y.act[p].toNat else y.act[p].toNat + drawOff d p) else y.offAt[p]) ∧
      z.level.getLsbD p.val =
        (y.level.getLsbD p.val || (pulsesNow y p && decide (p.val ≤ 3 ∨ drawOn d p = 0))) := by
  obtain ⟨l1, l2, hl, hn1, hn2⟩ : ∃ l1 l2 : List Slot, allSlots = l1 ++ p :: l2 ∧ p ∉ l1 ∧ p ∉ l2 := by
    fin_cases p
    · exact ⟨[], [1, 2, 3, 4, 5], rfl, by decide, by decide⟩
    · exact ⟨[0], [2, 3, 4, 5], rfl, by decide, by decide⟩
    · exact ⟨[0, 1], [3, 4, 5], rfl, by decide, by decide⟩
    · exact ⟨[0, 1, 2], [4, 5], rfl, by decide, by decide⟩
    · exact ⟨[0, 1, 2, 3], [5], rfl, by decide, by decide⟩
    · exact ⟨[0, 1, 2, 3, 4], [], rfl, by decide, by decide⟩
  dsimp only [openOutputs]
  rw [hl, List.foldl_append, List.foldl_cons]
  have hact : (l1.foldl (openOutput d) y).act = y.act := by
    obtain ⟨a, v, f, g, h⟩ := openLoop_frame d l1 y
    rw [h]
  obtain ⟨a1, a2, a3, a4⟩ := openLoop_other d l1 y p hn1
  obtain ⟨b1, b2, b3, b4⟩ := openOutput_self d (l1.foldl (openOutput d) y) p
  obtain ⟨c1, c2, c3, c4⟩ := openLoop_other d l2 (openOutput d (l1.foldl (openOutput d) y) p) p hn2
  rw [pulsesNow_openLoop] at b1 b2 b3 b4
  rw [hact] at b3
  rw [a2] at b4
  rw [a3] at b2
  rw [a4] at b3
  exact ⟨c1.trans b1, c3.trans b2, c4.trans b3, c2.trans b4⟩

/-- A target lies where 43_synth.md R180 says. -/
theorem pulseTarget_mem (c : Reg) (wide : Bool) :
    8000 ≤ pulseTarget c wide ∧ pulseTarget c wide ≤ (if wide then 24000 else 16000) := by
  unfold pulseTarget clamp
  cases wide <;> simp <;> omega

/-- A target fits its register. -/
theorem wrap16_pulseTarget (c : Reg) (wide : Bool) : ((wrap16 (pulseTarget c wide)).toNat : Int) = pulseTarget c wide := by
  have h := pulseTarget_mem c wide
  apply wrap16_toNat
  · omega
  · cases wide <;> simp at h <;> omega

theorem latchedTargets_getElem (y : Syn) (o : Slot) :
    (latchedTargets y)[o] = wrap16 (pulseTarget y.cmd[y.route[o]] (y.wide.getLsbD o.val)) := by
  simp [latchedTargets]

/-- FrameStart's output loop writes ACTIVE, ON_AT, OFF_AT and LEVEL alone. -/
theorem openOutputs_frame (d : Draws) (y : Syn) :
    ∃ active level : BitVec 6, ∃ onAt offAt : Vector Nat 6,
      openOutputs d y = { y with active := active, level := level, onAt := onAt, offAt := offAt } :=
  openLoop_frame d allSlots y

@[simp] theorem latchCommit_act (y : Syn) : (latchCommit y).act = if y.pend then latchedTargets y else y.act := by
  unfold latchCommit; split <;> rfl

@[simp] theorem latchCommit_pend (y : Syn) : (latchCommit y).pend = false := by
  unfold latchCommit; split <;> simp_all

/-- A latch writes ACT and PEND alone. -/
theorem latchCommit_frame (y : Syn) :
    latchCommit y = { y with act := if y.pend then latchedTargets y else y.act, pend := false } := by
  unfold latchCommit
  split
  · rfl
  · rename_i h
    cases y
    simp_all

/-- A frame start raises FRAME, and LATCH if it latches; it clears no pending bit. -/
theorem frameIrqs_irqPend (latched : Bool) (s : State) (b : Nat) :
    (frameIrqs latched s).irqPend.getLsbD b =
      (decide (b = 8) || (latched && decide (b = 9)) || s.irqPend.getLsbD b) := by
  unfold frameIrqs
  cases latched
  · simp only [Bool.false_eq_true, if_false, getLsbD_raiseIrq, irqBit, Bool.false_and, Bool.or_false]
    rfl
  · simp only [if_true, getLsbD_raiseIrq, irqBit, Bool.true_and, Bool.or_assoc]
    rfl

/-- What FrameStart leaves: its registers as 43_synth.md R183 gives them, and ACTIVE, LEVEL, ON_AT and OFF_AT as the
output loop leaves them. -/
theorem frameStart_eq (d : Draws) (s : State) :
    ∃ active level : BitVec 6, ∃ onAt offAt : Vector Nat 6,
      frameStart d s = {
        s with
        irqPend := (frameIrqs s.syn.pend s).irqPend
        syn := {
          s.syn with
          startReq := false
          fstart := s.tcnt
          divph := nextPhase s.syn.startReq s.syn
          act := if s.syn.pend then latchedTargets s.syn else s.syn.act
          pend := false
          active := active, level := level, onAt := onAt, offAt := offAt } } := by
  obtain ⟨a, v, f, g, h⟩ := openOutputs_frame d (latchCommit (openFrame s.tcnt s.syn))
  refine ⟨a, v, f, g, ?_⟩
  unfold frameStart
  rw [h, latchCommit_frame]
  cases hp : s.syn.pend <;> simp only [frameIrqs, openFrame, hp] <;> rfl

end Sys2Proof.Machine
end

