-- ==== Sys2Proof/Laws/Bus.lean ====
section
/-! SUPPORT. What a step of the whole machine is: one move of one agent. -/

namespace Sys2Proof.Machine

/-- A step performs the first scheduled move, or the free one; before it, only the model's own two fields change. -/
theorem step_cases (s : State) :
    (∃ m rest, s.schedule = m :: rest ∧ step s = perform m { s with schedule := rest }) ∨
      (s.schedule = [] ∧ step s = perform (Config.freeStimulus s.drawIx) { s with drawIx := s.drawIx + 1 }) := by
  unfold step
  cases h : s.schedule with
  | nil => exact .inr ⟨rfl, rfl⟩
  | cons m rest => exact .inl ⟨m, rest, rfl, rfl⟩

theorem perform_host_ok (w : BusWord) (i : Instr) (s : State) (h : decode w = .ok i) :
    perform (.host w) s = exec i s := by
  simp [perform, hostTransaction, h]

theorem perform_host_error (w : BusWord) (e : Illegal) (s : State) (h : decode w = .error e) :
    perform (.host w) s = .next (illegalTransaction w s) := by
  simp [perform, hostTransaction, h]

@[simp] theorem perform_tick (levels : BitVec 4) (d : Draws) (s : State) :
    perform (.tick levels d) s = .next (tick levels (boundedDraws d) s) := rfl

@[simp] theorem perform_reset (s : State) : perform .reset s = .next (resetState s) := rfl

/-- The counter and the unit registers a tick leaves alone: it counts TCNT, works the capture unit and the synthesizer,
raises pending bits, and ends whatever BUS_RDATA held. -/
theorem tick_frame (levels : BitVec 4) (d : Draws) (s : State) :
    let t := tick levels d s
    t.tcnt = s.tcnt + 1#16 ∧ t.irqEn = s.irqEn ∧ t.busErr = s.busErr ∧ t.pid = s.pid ∧ t.busRdata = none ∧
      t.schedule = s.schedule ∧ t.drawIx = s.drawIx ∧
      t.cap = (captureTick levels { silent s with tcnt := s.tcnt + 1#16 }).cap := by
  obtain ⟨h1, h2, h3, h4, -, h6, h7, h8, -, -⟩ := captureTick_frame levels { silent s with tcnt := s.tcnt + 1#16 }
  unfold tick
  generalize captureTick levels { silent s with tcnt := s.tcnt + 1#16 } = u at *
  unfold synthTick
  split
  · split
    · obtain ⟨a, v, f, g, h⟩ := frameStart_eq d u
      rw [h]
      exact ⟨h1, h2, h3, h4, h6, h7, h8, rfl⟩
    · exact ⟨h1, h2, h3, h4, h6, h7, h8, rfl⟩
  · exact ⟨h1, h2, h3, h4, h6, h7, h8, rfl⟩

end Sys2Proof.Machine
end

