-- ==== Sys2Proof/Laws/Decode.lean ====
section
/-! SUPPORT. The fields of a transaction word. -/

namespace Sys2Proof

@[simp] theorem fieldW_busWord (w : Bool) (a : Addr) (v : Reg) : fieldW (busWord w a v) = w := by
  simp only [fieldW, busWord, BitVec.getLsbD_append]
  simp

@[simp] theorem fieldRsv_busWord (w : Bool) (a : Addr) (v : Reg) : fieldRsv (busWord w a v) = 0#7 := by
  apply BitVec.eq_of_getLsbD_eq
  intro i hi
  simp only [fieldRsv, busWord, BitVec.getLsbD_extractLsb', BitVec.getLsbD_append]
  simp [hi, show ¬ 24 + i < 16 by omega, show ¬ 24 + i - 16 < 8 by omega, show 24 + i - 16 - 8 < 7 by omega]

@[simp] theorem fieldAddr_busWord (w : Bool) (a : Addr) (v : Reg) : fieldAddr (busWord w a v) = a := by
  apply BitVec.eq_of_getLsbD_eq
  intro i hi
  simp only [fieldAddr, busWord, BitVec.getLsbD_extractLsb', BitVec.getLsbD_append]
  simp [hi, show ¬ 16 + i < 16 by omega]

@[simp] theorem fieldData_busWord (w : Bool) (a : Addr) (v : Reg) : fieldData (busWord w a v) = v := by
  apply BitVec.eq_of_getLsbD_eq
  intro i hi
  simp only [fieldData, busWord, BitVec.getLsbD_extractLsb', BitVec.getLsbD_append]
  simp [hi]

/-- A word with RSV = 0 is made of its three other fields. -/
theorem busWord_of_fields (t : BusWord) (h : fieldRsv t = 0#7) : busWord (fieldW t) (fieldAddr t) (fieldData t) = t := by
  apply BitVec.eq_of_getLsbD_eq
  intro i hi
  have hr : 24 ≤ i → i < 31 → t.getLsbD i = false := by
    intro h1 h2
    have := congrArg (fun x : BitVec 7 => x.getLsbD (i - 24)) h
    simpa [fieldRsv, show i - 24 < 7 by omega, show 24 + (i - 24) = i by omega] using this
  simp only [fieldW, fieldAddr, fieldData, busWord, BitVec.getLsbD_append, BitVec.getLsbD_extractLsb']
  by_cases h1 : i < 16
  · simp [h1]
  · by_cases h2 : i < 24
    · simp [h1, show i - 16 < 8 by omega, show 16 + (i - 16) = i by omega]
    · by_cases h3 : i < 31
      · simp [h1, show ¬ i - 16 < 8 by omega, show i - 16 - 8 < 7 by omega, hr (by omega) h3]
      · have h4 : i = 31 := by omega
        subst h4
        simp

/-- The decoder on a word with RSV = 0. -/
theorem decode_busWord (w : Bool) (a : Addr) (v : Reg) :
    decode (busWord w a v) = if w then decodeWrite a v else decodeRead a := by
  simp [decode]

/-- The decoder on any word. -/
theorem decode_eq (t : BusWord) :
    decode t = if fieldRsv t ≠ 0#7 then .error .reservedField
      else if fieldW t then decodeWrite (fieldAddr t) (fieldData t) else decodeRead (fieldAddr t) := rfl

end Sys2Proof
end

