-- ==== Sys2Proof/Laws/PerInstr.lean ====
section
/-! SUPPORT. Statements about every instruction, one lemma for each constructor. -/

namespace Sys2Proof.Laws.EncodeHeader

/-- Whether the instruction is a write transaction: the W column of 30_encoding.md R89. -/
def isWrite (i : Instr) : Bool :=
  match i with
  | .rdId => false
  | .rdStatus => false
  | .rdIrqPend => false
  | .wrIrqPend _ => true
  | .rdIrqEn => false
  | .wrIrqEn _ => true
  | .rdTcnt => false
  | .cmdClrErr => true
  | .cmdCapClr => true
  | .cmdPidStep => true
  | .cmdPidClr => true
  | .cmdSynCommit => true
  | .cmdSynCancel => true
  | .cmdSoftReset => true
  | .rdCapCtrl => false
  | .wrCapCtrl _ => true
  | .rdCapFence => false
  | .rdCapWidth _ => false
  | .rdCapStart _ => false
  | .rdCapAxis _ => false
  | .rdCapCenter _ => false
  | .wrCapCenter _ _ => true
  | .rdPidCtrl => false
  | .wrPidCtrl _ => true
  | .rdPidSp => false
  | .wrPidSp _ => true
  | .rdPidPv => false
  | .wrPidPv _ => true
  | .rdPidKp => false
  | .wrPidKp _ => true
  | .rdPidElim => false
  | .wrPidElim _ => true
  | .rdPidEps => false
  | .wrPidEps _ => true
  | .rdPidColl => false
  | .wrPidColl _ => true
  | .rdPidInt => false
  | .rdPidLasterr => false
  | .rdPidOut => false
  | .rdPidStat => false
  | .rdSynCtrl => false
  | .wrSynCtrl _ => true
  | .rdSynOuten => false
  | .wrSynOuten _ => true
  | .rdSynWide => false
  | .wrSynWide _ => true
  | .rdSynSlow => false
  | .wrSynSlow _ => true
  | .rdSynLow => false
  | .wrSynLow _ => true
  | .rdSynDiv => false
  | .wrSynDiv _ => true
  | .rdSynRoute0 => false
  | .wrSynRoute0 _ => true
  | .rdSynRoute1 => false
  | .wrSynRoute1 _ => true
  | .rdSynFstart => false
  | .rdSynDivph => false
  | .rdSynLevel => false
  | .rdSynCmd _ => false
  | .wrSynCmd _ _ => true
  | .rdSynAct _ => false

/-- The header of an encoded instruction: RSV is zero and W says whether it writes (30_encoding.md R80). -/
def Statement (i : Instr) : Prop := fieldRsv (encode i) = 0#7 ∧ fieldW (encode i) = isWrite i

theorem header_busWord (w : Bool) (a : Addr) (v : Reg) :
    fieldRsv (busWord w a v) = 0#7 ∧ fieldW (busWord w a v) = w := ⟨fieldRsv_busWord w a v, fieldW_busWord w a v⟩

theorem rdId : Statement (.rdId) := header_busWord _ _ _
theorem rdStatus : Statement (.rdStatus) := header_busWord _ _ _
theorem rdIrqPend : Statement (.rdIrqPend) := header_busWord _ _ _
theorem wrIrqPend (v : Reg) : Statement (.wrIrqPend v) := header_busWord _ _ _
theorem rdIrqEn : Statement (.rdIrqEn) := header_busWord _ _ _
theorem wrIrqEn (v : Reg) : Statement (.wrIrqEn v) := header_busWord _ _ _
theorem rdTcnt : Statement (.rdTcnt) := header_busWord _ _ _
theorem cmdClrErr : Statement (.cmdClrErr) := header_busWord _ _ _
theorem cmdCapClr : Statement (.cmdCapClr) := header_busWord _ _ _
theorem cmdPidStep : Statement (.cmdPidStep) := header_busWord _ _ _
theorem cmdPidClr : Statement (.cmdPidClr) := header_busWord _ _ _
theorem cmdSynCommit : Statement (.cmdSynCommit) := header_busWord _ _ _
theorem cmdSynCancel : Statement (.cmdSynCancel) := header_busWord _ _ _
theorem cmdSoftReset : Statement (.cmdSoftReset) := header_busWord _ _ _
theorem rdCapCtrl : Statement (.rdCapCtrl) := header_busWord _ _ _
theorem wrCapCtrl (v : Reg) : Statement (.wrCapCtrl v) := header_busWord _ _ _
theorem rdCapFence : Statement (.rdCapFence) := header_busWord _ _ _
theorem rdCapWidth (n : BitVec 2) : Statement (.rdCapWidth n) := header_busWord _ _ _
theorem rdCapStart (n : BitVec 2) : Statement (.rdCapStart n) := header_busWord _ _ _
theorem rdCapAxis (n : BitVec 2) : Statement (.rdCapAxis n) := header_busWord _ _ _
theorem rdCapCenter (n : BitVec 2) : Statement (.rdCapCenter n) := header_busWord _ _ _
theorem wrCapCenter (n : BitVec 2) (v : Reg) : Statement (.wrCapCenter n v) := header_busWord _ _ _
theorem rdPidCtrl : Statement (.rdPidCtrl) := header_busWord _ _ _
theorem wrPidCtrl (v : Reg) : Statement (.wrPidCtrl v) := header_busWord _ _ _
theorem rdPidSp : Statement (.rdPidSp) := header_busWord _ _ _
theorem wrPidSp (v : Reg) : Statement (.wrPidSp v) := header_busWord _ _ _
theorem rdPidPv : Statement (.rdPidPv) := header_busWord _ _ _
theorem wrPidPv (v : Reg) : Statement (.wrPidPv v) := header_busWord _ _ _
theorem rdPidKp : Statement (.rdPidKp) := header_busWord _ _ _
theorem wrPidKp (v : Reg) : Statement (.wrPidKp v) := header_busWord _ _ _
theorem rdPidElim : Statement (.rdPidElim) := header_busWord _ _ _
theorem wrPidElim (v : Reg) : Statement (.wrPidElim v) := header_busWord _ _ _
theorem rdPidEps : Statement (.rdPidEps) := header_busWord _ _ _
theorem wrPidEps (v : Reg) : Statement (.wrPidEps v) := header_busWord _ _ _
theorem rdPidColl : Statement (.rdPidColl) := header_busWord _ _ _
theorem wrPidColl (v : Reg) : Statement (.wrPidColl v) := header_busWord _ _ _
theorem rdPidInt : Statement (.rdPidInt) := header_busWord _ _ _
theorem rdPidLasterr : Statement (.rdPidLasterr) := header_busWord _ _ _
theorem rdPidOut : Statement (.rdPidOut) := header_busWord _ _ _
theorem rdPidStat : Statement (.rdPidStat) := header_busWord _ _ _
theorem rdSynCtrl : Statement (.rdSynCtrl) := header_busWord _ _ _
theorem wrSynCtrl (v : Reg) : Statement (.wrSynCtrl v) := header_busWord _ _ _
theorem rdSynOuten : Statement (.rdSynOuten) := header_busWord _ _ _
theorem wrSynOuten (v : Reg) : Statement (.wrSynOuten v) := header_busWord _ _ _
theorem rdSynWide : Statement (.rdSynWide) := header_busWord _ _ _
theorem wrSynWide (v : Reg) : Statement (.wrSynWide v) := header_busWord _ _ _
theorem rdSynSlow : Statement (.rdSynSlow) := header_busWord _ _ _
theorem wrSynSlow (v : Reg) : Statement (.wrSynSlow v) := header_busWord _ _ _
theorem rdSynLow : Statement (.rdSynLow) := header_busWord _ _ _
theorem wrSynLow (v : Reg) : Statement (.wrSynLow v) := header_busWord _ _ _
theorem rdSynDiv : Statement (.rdSynDiv) := header_busWord _ _ _
theorem wrSynDiv (v : Reg) : Statement (.wrSynDiv v) := header_busWord _ _ _
theorem rdSynRoute0 : Statement (.rdSynRoute0) := header_busWord _ _ _
theorem wrSynRoute0 (v : Reg) : Statement (.wrSynRoute0 v) := header_busWord _ _ _
theorem rdSynRoute1 : Statement (.rdSynRoute1) := header_busWord _ _ _
theorem wrSynRoute1 (v : Reg) : Statement (.wrSynRoute1 v) := header_busWord _ _ _
theorem rdSynFstart : Statement (.rdSynFstart) := header_busWord _ _ _
theorem rdSynDivph : Statement (.rdSynDivph) := header_busWord _ _ _
theorem rdSynLevel : Statement (.rdSynLevel) := header_busWord _ _ _
theorem rdSynCmd (k : BitVec 3) : Statement (.rdSynCmd k) := header_busWord _ _ _
theorem wrSynCmd (k : BitVec 3) (v : Reg) : Statement (.wrSynCmd k v) := header_busWord _ _ _
theorem rdSynAct (o : BitVec 3) : Statement (.rdSynAct o) := header_busWord _ _ _

end Sys2Proof.Laws.EncodeHeader
end

