-- ==== Sys2Proof/Tests/Slice0.lean ====
section
/-! SUPPORT. Tests: ill-formed terms, decoding of words written out from 30_encoding.md, one-step vectors of
95_test_vectors.md, and for every statement with hypotheses a state and operands that meet them. -/

namespace Sys2Proof.Tests

open Sys2Proof.Machine

/-! ### Well-formedness: each check refuses an ill-formed term and admits the boundary (30_encoding.md R85, R87) -/

theorem test_wellFormed_rdSynCmd : (Instr.rdSynCmd 6).wellFormed = false ∧ (Instr.rdSynCmd 5).wellFormed = true := by
  decide

theorem test_wellFormed_wrSynCmd :
    (Instr.wrSynCmd 7 0).wellFormed = false ∧ (Instr.wrSynCmd 5 0xFFFF).wellFormed = true := by decide

theorem test_wellFormed_rdSynAct : (Instr.rdSynAct 6).wellFormed = false ∧ (Instr.rdSynAct 5).wellFormed = true := by
  decide

theorem test_wellFormed_wrSynRoute0 :
    (Instr.wrSynRoute0 0x0006).wellFormed = false ∧ (Instr.wrSynRoute0 0x0060).wellFormed = false ∧
      (Instr.wrSynRoute0 0x0600).wellFormed = false ∧ (Instr.wrSynRoute0 0x6000).wellFormed = false ∧
      (Instr.wrSynRoute0 0x5555).wellFormed = true := by decide

theorem test_wellFormed_wrSynRoute1 :
    (Instr.wrSynRoute1 0x0006).wellFormed = false ∧ (Instr.wrSynRoute1 0x0060).wellFormed = false ∧
      (Instr.wrSynRoute1 0xFF55).wellFormed = true := by decide

/-! ### Decoding: every row of 30_encoding.md R89, the word written out as W, RSV, ADDR, DATA -/

theorem test_decode_global_reads :
    decode 0x00000000#32 = .ok .rdId ∧ decode 0x00010000#32 = .ok .rdStatus ∧
      decode 0x00020000#32 = .ok .rdIrqPend ∧ decode 0x00030000#32 = .ok .rdIrqEn ∧
      decode 0x0004BEEF#32 = .ok .rdTcnt := by decide

theorem test_decode_global_writes :
    decode 0x80020011#32 = .ok (.wrIrqPend 0x0011) ∧ decode 0x8003FFFF#32 = .ok (.wrIrqEn 0xFFFF) := by decide

theorem test_decode_commands :
    decode 0x80050001#32 = .ok .cmdClrErr ∧ decode 0x80050002#32 = .ok .cmdCapClr ∧
      decode 0x80050010#32 = .ok .cmdPidStep ∧ decode 0x80050011#32 = .ok .cmdPidClr ∧
      decode 0x80050020#32 = .ok .cmdSynCommit ∧ decode 0x80050021#32 = .ok .cmdSynCancel ∧
      decode 0x800500A5#32 = .ok .cmdSoftReset := by decide

theorem test_decode_capture :
    decode 0x00100000#32 = .ok .rdCapCtrl ∧ decode 0x8010FFFF#32 = .ok (.wrCapCtrl 0xFFFF) ∧
      decode 0x00110000#32 = .ok .rdCapFence ∧ decode 0x00150000#32 = .ok (.rdCapWidth 1) ∧
      decode 0x001B0000#32 = .ok (.rdCapStart 3) ∧ decode 0x001C0000#32 = .ok (.rdCapAxis 0) ∧
      decode 0x00220000#32 = .ok (.rdCapCenter 2) ∧ decode 0x80232EE0#32 = .ok (.wrCapCenter 3 12000) := by decide

theorem test_decode_pid_reads :
    decode 0x00300000#32 = .ok .rdPidCtrl ∧ decode 0x00310000#32 = .ok .rdPidSp ∧
      decode 0x00320000#32 = .ok .rdPidPv ∧ decode 0x00330000#32 = .ok .rdPidKp ∧
      decode 0x00340000#32 = .ok .rdPidElim ∧ decode 0x00350000#32 = .ok .rdPidEps ∧
      decode 0x00360000#32 = .ok .rdPidColl ∧ decode 0x00370000#32 = .ok .rdPidInt ∧
      decode 0x00380000#32 = .ok .rdPidLasterr ∧ decode 0x00390000#32 = .ok .rdPidOut ∧
      decode 0x003A0000#32 = .ok .rdPidStat := by decide

theorem test_decode_pid_writes :
    decode 0x80300422#32 = .ok (.wrPidCtrl 0x0422) ∧ decode 0x80310032#32 = .ok (.wrPidSp 50) ∧
      decode 0x8032FE0C#32 = .ok (.wrPidPv 0xFE0C) ∧ decode 0x80330180#32 = .ok (.wrPidKp 0x0180) ∧
      decode 0x80347FFF#32 = .ok (.wrPidElim 0x7FFF) ∧ decode 0x80350005#32 = .ok (.wrPidEps 5) ∧
      decode 0x80360320#32 = .ok (.wrPidColl 800) := by decide

theorem test_decode_synth_reads :
    decode 0x00400000#32 = .ok .rdSynCtrl ∧ decode 0x00410000#32 = .ok .rdSynOuten ∧
      decode 0x00420000#32 = .ok .rdSynWide ∧ decode 0x00430000#32 = .ok .rdSynSlow ∧
      decode 0x00440000#32 = .ok .rdSynLow ∧ decode 0x00450000#32 = .ok .rdSynDiv ∧
      decode 0x00460000#32 = .ok .rdSynRoute0 ∧ decode 0x00470000#32 = .ok .rdSynRoute1 ∧
      decode 0x00480000#32 = .ok .rdSynFstart ∧ decode 0x00490000#32 = .ok .rdSynDivph ∧
      decode 0x004A0000#32 = .ok .rdSynLevel ∧ decode 0x00550000#32 = .ok (.rdSynCmd 5) ∧
      decode 0x005C0000#32 = .ok (.rdSynAct 4) := by decide

theorem test_decode_synth_writes :
    decode 0x80400001#32 = .ok (.wrSynCtrl 1) ∧ decode 0x80410011#32 = .ok (.wrSynOuten 0x11) ∧
      decode 0x80420001#32 = .ok (.wrSynWide 1) ∧ decode 0x80430010#32 = .ok (.wrSynSlow 0x10) ∧
      decode 0x8044EA60#32 = .ok (.wrSynLow 60000) ∧ decode 0x80451203#32 = .ok (.wrSynDiv 0x1203) ∧
      decode 0x80464210#32 = .ok (.wrSynRoute0 0x4210) ∧ decode 0x8047FF55#32 = .ok (.wrSynRoute1 0xFF55) ∧
      decode 0x805403E8#32 = .ok (.wrSynCmd 4 1000) := by decide

/-- 30_encoding.md R87 items 1, 3, 4, 5, 6, 7 (95_test_vectors.md G-8, G-10, G-11, G-12, S-11). -/
theorem test_decode_illegal :
    decode 0x01000000#32 = .error .reservedField ∧ decode 0x40020000#32 = .error .reservedField ∧
      decode 0x80041234#32 = .error .readOnly ∧ decode 0x80140000#32 = .error .readOnly ∧
      decode 0x805D0000#32 = .error .readOnly ∧ decode 0x00050000#32 = .error .readOfCmd ∧
      decode 0x80050003#32 = .error .commandCode ∧ decode 0x80466210#32 = .error .route0Nibble ∧
      decode 0x80470060#32 = .error .route1Nibble := by decide

/-- The two ends of each unmapped range of 20_memory.md R66 (95_test_vectors.md G-9). -/
theorem test_decode_unmapped :
    decode 0x00060000#32 = .error .unmapped ∧ decode 0x000F0000#32 = .error .unmapped ∧
      decode 0x00120000#32 = .error .unmapped ∧ decode 0x80130000#32 = .error .unmapped ∧
      decode 0x00240000#32 = .error .unmapped ∧ decode 0x802F0000#32 = .error .unmapped ∧
      decode 0x003B0000#32 = .error .unmapped ∧ decode 0x003F0000#32 = .error .unmapped ∧
      decode 0x004B0000#32 = .error .unmapped ∧ decode 0x804F0000#32 = .error .unmapped ∧
      decode 0x00560000#32 = .error .unmapped ∧ decode 0x80570000#32 = .error .unmapped ∧
      decode 0x005E0000#32 = .error .unmapped ∧ decode 0x80FF0000#32 = .error .unmapped := by decide

/-- decodeTableWord reads the table's bits as the bits of BUS_REQ. -/
theorem test_decodeTableWord :
    decodeTableWord 32 0x80310032 = some (.wrPidSp 50) ∧ decodeTableWord 32 0x00060000 = none := by decide

/-! ### One step on a small state -/

/-- The state an outcome goes on with. -/
def stateOf (o : Host.Outcome State Fault Refusal) : State :=
  match o with
  | .next t => t
  | .fault _ => State.reset
  | .refused _ => State.reset

/-- What the instruction leaves on BUS_RDATA. -/
def answer (i : Instr) (s : State) : Option Reg := (stateOf (exec i s)).busRdata

/-- The reset state with the given capture unit. -/
def withCap (c : Cap) : State := { State.reset with cap := c }

/-- The reset state with the given PID unit. -/
def withPid (p : Pid) : State := { State.reset with pid := p }

/-- The reset state with the given synthesizer. -/
def withSyn (y : Syn) : State := { State.reset with syn := y }

/-- No delay. -/
def noDelay : Draws := ⟨0, 0, 0, 0⟩

/-! Global (95_test_vectors.md section 2) -/

/-- G-1. -/
theorem test_rdId : answer .rdId State.reset = some 0x4B4B := by decide

/-- G-2 and P1 step 18, with BUSERR and PEND set too (10_state.md R25). -/
theorem test_rdStatus :
    answer .rdStatus State.reset = some 0 ∧
      answer .rdStatus { withCap { State.reset.cap with valid := 3, prev := 5 } with busErr := true } = some 0x8053 ∧
      answer .rdStatus (withSyn { State.reset.syn with pend := true }) = some 0x0100 := by decide

/-- G-6. -/
theorem test_wrIrqPend :
    answer .rdIrqPend { State.reset with irqPend := 0x333 } = some 0x0333 ∧
      (stateOf (exec (.wrIrqPend 0x0011) { State.reset with irqPend := 0x033 })).irqPend = 0x022 := by decide

/-- G-5 and G-7. -/
theorem test_wrIrqEn :
    (stateOf (exec (.wrIrqEn 0xFFFF) State.reset)).irqEn = 0x7FF ∧
      answer .rdIrqEn { State.reset with irqEn := 0x7FF } = some 0x07FF ∧
      ({ State.reset with irqPend := 0x100 } : State).irq = false ∧
      (stateOf (exec (.wrIrqEn 0x0100) { State.reset with irqPend := 0x100 })).irq = true := by decide

/-- G-3 and G-4. -/
theorem test_tick_counts :
    (tick 0 noDelay State.reset).tcnt = 1 ∧ (tick 0 noDelay { State.reset with tcnt := 0xFFFF }).tcnt = 0 ∧
      answer .rdTcnt { State.reset with tcnt := 0x1234 } = some 0x1234 := by decide

/-- G-8 and G-10: an illegal write and an illegal read. -/
theorem test_illegal_transaction :
    (let t := stateOf (hostTransaction 0x80041234#32 State.reset);
      t.tcnt = 0 ∧ t.busErr = true ∧ t.irqPend = 0x400 ∧ t.busRdata = none) ∧
      (let t := stateOf (hostTransaction 0x01000000#32 State.reset);
        t.busRdata = some 0 ∧ t.busErr = true ∧ t.irqPend = 0x400) := by decide

/-- G-13. -/
theorem test_cmdClrErr :
    let t := stateOf (exec .cmdClrErr { State.reset with busErr := true, irqPend := 0x400 })
    t.busErr = false ∧ t.irqPend = 0x400 := by decide

/-- G-14: WIDTH stays (70_reset_and_hazards.md R251). -/
theorem test_cmdSoftReset :
    let s := { withCap { State.reset.cap with fence := 7, width := #v[1, 2, 3, 4] } with tcnt := 99, irqEn := 5 }
    stateOf (exec .cmdSoftReset s) = withCap { State.reset.cap with width := #v[1, 2, 3, 4] } := by decide

/-! Capture (sections 3.1 and 3.2) -/

/-- G-15, and C-6: RISE_SEEN of the disabled channel goes, of the others stays. -/
theorem test_wrCapCtrl :
    (stateOf (exec (.wrCapCtrl 0xFFFF) State.reset)).cap.en = 0xF ∧
      (stateOf (exec (.wrCapCtrl 2) (withCap { State.reset.cap with en := 3, riseSeen := 3 }))).cap.riseSeen = 2 := by
  decide

/-- The array reads take n from ADDR[1:0] (30_encoding.md R85). -/
theorem test_capture_reads :
    let s := withCap { State.reset.cap with en := 5, fence := 9, width := #v[1, 2, 3, 4], start := #v[5, 6, 7, 8] }
    answer .rdCapCtrl s = some 5 ∧ answer .rdCapFence s = some 9 ∧ answer (.rdCapWidth 1) s = some 2 ∧
      answer (.rdCapStart 3) s = some 8 ∧ answer (.rdCapCenter 2) s = some 8960 := by decide

/-- The table of section 3.2. -/
theorem test_rdCapAxis :
    axisValue 12160 12160 = 0 ∧ axisValue 12960 12160 = 100 ∧ axisValue 11360 12160 = -100 ∧
      axisValue 12167 12160 = 0 ∧ axisValue 12153 12160 = 0 ∧ axisValue 12152 12160 = -1 ∧
      axisValue 8000 8960 = -120 ∧ axisValue 65535 12160 = -1520 ∧ axisValue 44928 12160 = -4096 ∧
      axisValue 44927 12160 = 4095 ∧
      answer (.rdCapAxis 1) (withCap { State.reset.cap with width := #v[0, 9600, 0, 0] }) = some 0xFEC0 := by decide

theorem test_wrCapCenter :
    (stateOf (exec (.wrCapCenter 3 12000) State.reset)).cap.center = #v[12160, 12160, 8960, 12000] := by decide

/-- C-7. -/
theorem test_cmdCapClr :
    let t := stateOf (exec .cmdCapClr (withCap { State.reset.cap with valid := 0xF, riseSeen := 5, en := 7 }))
    t.cap.valid = 0 ∧ t.cap.riseSeen = 0 ∧ t.cap.en = 7 := by decide

/-- C-1, the two edges: a rise at TCNT 11, a fall at 12171. -/
theorem test_capture_edges :
    (let t := tick 1 noDelay { withCap { State.reset.cap with en := 0xF } with tcnt := 10 };
      t.cap.start[0] = 11 ∧ t.cap.riseSeen = 1 ∧ t.irqPend = 0x010) ∧
      (let t := tick 0 noDelay { withCap {
            State.reset.cap with en := 0xF, prev := 1, riseSeen := 1, start := #v[11, 0, 0, 0] } with tcnt := 12170 };
        t.cap.width[0] = 12160 ∧ t.cap.fence = 1 ∧ t.cap.valid = 1 ∧ t.irqPend = 0x001 ∧ t.cap.prev = 0) := by decide

/-- C-2 (K7), C-3 and C-5: the wrap, two publishes in one tick, a fall with no recorded rise. -/
theorem test_capture_publishes :
    (tick 0 noDelay { withCap {
        State.reset.cap with en := 1, prev := 1, riseSeen := 1, start := #v[0xF000, 0, 0, 0] } with tcnt := 7999
        }).cap.width[0] = 12096 ∧
      (let t := tick 0 noDelay (withCap { State.reset.cap with en := 0xF, prev := 5, riseSeen := 5 });
        t.cap.fence = 2 ∧ t.irqPend = 0x005) ∧
      (let t := tick 0 noDelay (withCap { State.reset.cap with en := 1, prev := 1 });
        t.cap.fence = 0 ∧ t.cap.valid = 0 ∧ t.irqPend = 0) := by decide

/-! PID (section 3.3): OUT, INT, LASTERR, STAT after one step -/

/-- OUT, INT, LASTERR and STAT after one step, the first three as signed numbers. -/
def stepped (p : Pid) : Int × Int × Int × BitVec 4 :=
  let q := pidStep p
  (q.out.toInt, q.integ.toInt, q.lastErr.toInt, q.stat)

/-- P-1 to P-4, P-9, P-10, P-13, P-14. -/
theorem test_pidStep_yaw :
    let p := { State.reset.pid with coll := 800 }
    stepped { p with sp := 50 } = (58, 50, 50, 0) ∧
      stepped { p with sp := 50, integ := 50, lastErr := 50 } = (75, 100, 50, 0) ∧
      stepped { p with sp := 50, integ := 100, lastErr := 50 } = (75, 100, 50, 2) ∧
      stepped { p with sp := 2000, pv := 0xFE0C } = (1041, 100, 1023, 7) ∧
      stepped { p with eps := 5, sp := 5 } = (4, 0, 5, 0) ∧
      stepped { p with eps := 5, sp := 6, lastErr := 5 } = (6, 6, 6, 0) ∧
      stepped { p with sp := 0xFFFF } = (-2, -1, -1, 0) ∧
      stepped { p with iEn := false, sp := 10, integ := 50, lastErr := 50 } = (12, 50, 10, 0) := by decide

/-- P-5 to P-8, P-11, P-12. -/
theorem test_pidStep_corners :
    let p := { State.reset.pid with iEn := false, dEn := false, iShift := 0, dShift := 0 }
    stepped { p with kp := 0x0180, sp := 0xFFFD } = (-5, 0, -3, 0) ∧
      stepped { p with kp := 0xFFFF, elim := 32767, sp := 0x7FFF, pv := 0x8000 } = (32767, 0, 32767, 9) ∧
      stepped { p with kp := 0xFFFF, elim := 32767, sp := 0x8000, pv := 0x7FFF } = (-32768, 0, -32767, 9) ∧
      stepped { p with elim := 32767, sp := 0x8000, pv := 1 } = (-32767, 0, -32767, 1) ∧
      stepped { State.reset.pid with sp := 100 } = (100, 0, 100, 6) ∧
      stepped { State.reset.pid with sp := 100, coll := 0xFFB0 } = (100, 0, 100, 6) := by decide

/-- CMD PID_STEP is the step, CMD PID_CLR clears its four results (42_pid.md R170, R171). -/
theorem test_pid_commands :
    let s := withPid { State.reset.pid with coll := 800, sp := 50 }
    (stateOf (exec .cmdPidStep s)).pid = { s.pid with out := 58, integ := 50, lastErr := 50 } ∧
      (stateOf (exec .cmdPidClr (withPid { s.pid with out := 1, integ := 2, lastErr := 3, stat := 4 }))).pid = s.pid := by
  decide

theorem test_pid_reads :
    let s := withPid {
      State.reset.pid with
      sp := 1, pv := 2, eps := 3, coll := 4, integ := 5, lastErr := 6, out := 7, stat := 8 }
    answer .rdPidCtrl s = some 0x0423 ∧ answer .rdPidSp s = some 1 ∧ answer .rdPidPv s = some 2 ∧
      answer .rdPidKp s = some 0x0100 ∧ answer .rdPidElim s = some 1023 ∧ answer .rdPidEps s = some 3 ∧
      answer .rdPidColl s = some 4 ∧ answer .rdPidInt s = some 5 ∧ answer .rdPidLasterr s = some 6 ∧
      answer .rdPidOut s = some 7 ∧ answer .rdPidStat s = some 8 := by decide

/-- PID_CTRL takes its four fields, PID_ELIM and PID_EPS ignore bit 15 (42_pid.md R153, R161, R163). -/
theorem test_pid_writes :
    let p := State.reset.pid
    (stateOf (exec (.wrPidCtrl 0xF95E) State.reset)).pid = { p with iEn := false, iShift := 5, dShift := 9 } ∧
      (stateOf (exec (.wrPidSp 1) State.reset)).pid = { p with sp := 1 } ∧
      (stateOf (exec (.wrPidPv 2) State.reset)).pid = { p with pv := 2 } ∧
      (stateOf (exec (.wrPidKp 3) State.reset)).pid = { p with kp := 3 } ∧
      (stateOf (exec (.wrPidElim 0xFFFF) State.reset)).pid = { p with elim := 0x7FFF } ∧
      (stateOf (exec (.wrPidEps 0x8005) State.reset)).pid = { p with eps := 5 } ∧
      (stateOf (exec (.wrPidColl 800) State.reset)).pid = { p with coll := 800 } := by decide

/-! Synthesizer (sections 3.4 and 3.5) -/

/-- Section 3.4, and the bounds of each clause of the target (43_synth.md R180). -/
theorem test_pulseTarget :
    pulseTarget 0 false = 8000 ∧ pulseTarget 500 false = 12000 ∧ pulseTarget 1000 false = 16000 ∧
      pulseTarget 1001 false = 16000 ∧ pulseTarget 32767 false = 16000 ∧ pulseTarget 0xFFFB false = 8000 ∧
      pulseTarget 0xFFFF true = 8000 ∧ pulseTarget 1500 true = 20000 ∧ pulseTarget 2000 true = 24000 ∧
      pulseTarget 2001 true = 24000 ∧ pulseTarget 0x8000 true = 8000 ∧ pulseTarget 114 false = 8912 := by decide

/-- S-1. -/
theorem test_frame_start :
    let t := tick 0 noDelay { withSyn { State.reset.syn with en := true, startReq := true } with tcnt := 99 }
    t.syn.fstart = 100 ∧ t.syn.divph = 0 ∧ t.irqPend = 0x100 ∧ t.syn.startReq = false := by decide

/-- S-6: the latch takes the staged value of the routed slot; outputs 0 and 3 mirror slot 1 (P5). -/
theorem test_frame_latch :
    let t := tick 0 noDelay (withSyn {
      State.reset.syn with
      en := true, startReq := true, pend := true, outen := 1, cmd := #v[0, 700, 0, 0, 0, 0], route := #v[1, 2, 2, 1, 4, 5] })
    t.syn.act = #v[13600, 8000, 8000, 13600, 8000, 8000] ∧ t.syn.pend = false ∧ t.irqPend = 0x300 ∧
      t.syn.level = 1 ∧ t.syn.active = 1 := by decide

/-- S-12: with δon = 2 and δoff = 3, output 4 waits at the frame start, goes high at elapsed 2 and low at 12003. -/
theorem test_polled_output :
    let y := { State.reset.syn with en := true, outen := 0x10, act := #v[0, 0, 0, 0, 12000, 0] }
    let run := { y with active := 0x10, onAt := #v[0, 0, 0, 0, 2, 0], offAt := #v[0, 0, 0, 0, 12003, 0] }
    (let t := tick 0 ⟨2, 3, 0, 0⟩ (withSyn { y with startReq := true });
      t.syn.level = 0 ∧ t.syn.onAt[4] = 2 ∧ t.syn.offAt[4] = 12003) ∧
      (tick 0 noDelay { withSyn run with tcnt := 1 }).syn.level = 0x10 ∧
      (tick 0 noDelay { withSyn { run with level := 0x10 } with tcnt := 12001 }).syn.level = 0x10 ∧
      (tick 0 noDelay { withSyn { run with level := 0x10 } with tcnt := 12002 }).syn.level = 0 := by decide

/-- S-13: the phase counts modulo DIV, and a slow output is idle while it is not 0. -/
theorem test_slow_output :
    let y := { State.reset.syn with en := true, outen := 0x10, slow := 0x10, div := 3 }
    (let t := tick 0 noDelay { withSyn y with tcnt := 17775 }; t.syn.divph = 1 ∧ t.syn.active = 0) ∧
      (let t := tick 0 noDelay { withSyn { y with divph := 2 } with tcnt := 17775 };
        t.syn.divph = 0 ∧ t.syn.active = 0x10) := by decide

/-- S-3: enabling requests a frame, disabling drives the outputs low. -/
theorem test_wrSynCtrl :
    (let t := stateOf (exec (.wrSynCtrl 1) State.reset); t.syn.en = true ∧ t.syn.startReq = true) ∧
      (let t := stateOf (exec (.wrSynCtrl 0) (withSyn { State.reset.syn with en := true, level := 3, active := 1 }));
        t.syn.en = false ∧ t.syn.level = 0 ∧ t.syn.active = 0) ∧
      (stateOf (exec (.wrSynCtrl 1) (withSyn { State.reset.syn with en := true, level := 3 }))).syn.startReq = false := by
  decide

/-- S-4. -/
theorem test_wrSynOuten :
    let t := stateOf (exec (.wrSynOuten 2) (withSyn {
      State.reset.syn with en := true, outen := 3, level := 3, active := 3 }))
    t.syn.outen = 2 ∧ t.syn.level = 2 ∧ t.syn.active = 2 := by decide

/-- S-7, S-8, S-9, and bits 15:6 ignored (10_state.md R46). -/
theorem test_synth_field_writes :
    (stateOf (exec (.wrSynDiv 0) State.reset)).syn.div = 1 ∧ (stateOf (exec (.wrSynDiv 0x1203) State.reset)).syn.div = 3 ∧
      (stateOf (exec (.wrSynLow 60000) State.reset)).syn.low = 49535 ∧
      (stateOf (exec (.wrSynLow 49535) State.reset)).syn.low = 49535 ∧
      (stateOf (exec (.wrSynWide 0xFFC1) State.reset)).syn.wide = 1 ∧
      (stateOf (exec (.wrSynSlow 0xFFD0) State.reset)).syn.slow = 0x10 := by decide

/-- P5 step 1 and S-11. -/
theorem test_route_writes :
    (stateOf (exec (.wrSynRoute0 0x4210) State.reset)).syn.route = #v[0, 1, 2, 4, 4, 5] ∧
      (stateOf (exec (.wrSynRoute1 0xFF03) State.reset)).syn.route = #v[0, 1, 2, 3, 3, 0] ∧
      (let t := stateOf (hostTransaction 0x80466210#32 State.reset);
        t.syn = State.reset.syn ∧ t.busErr = true) := by decide

/-- S-10 and S-15. -/
theorem test_synth_indexed :
    (stateOf (exec (.wrSynCmd 1 0xFFFB) State.reset)).syn.cmd = #v[0, 0xFFFB, 0, 0, 0, 0] ∧
      answer (.rdSynCmd 5) (withSyn { State.reset.syn with cmd := #v[1, 2, 3, 4, 5, 6] }) = some 6 ∧
      answer (.rdSynAct 0) State.reset = some 0x1F40 ∧
      answer (.rdSynAct 4) (withSyn { State.reset.syn with act := #v[1, 2, 3, 4, 5, 6] }) = some 5 := by decide

theorem test_synth_reads :
    let s := withSyn {
      State.reset.syn with
      en := true, outen := 0x21, wide := 0x12, slow := 0x30, div := 7, fstart := 8, divph := 9, level := 0x2A }
    answer .rdSynCtrl s = some 1 ∧ answer .rdSynOuten s = some 0x21 ∧ answer .rdSynWide s = some 0x12 ∧
      answer .rdSynSlow s = some 0x30 ∧ answer .rdSynLow s = some 1776 ∧ answer .rdSynDiv s = some 7 ∧
      answer .rdSynRoute0 s = some 0x3210 ∧ answer .rdSynRoute1 s = some 0x0054 ∧ answer .rdSynFstart s = some 8 ∧
      answer .rdSynDivph s = some 9 ∧ answer .rdSynLevel s = some 0x2A := by decide

/-- S-5: a cancelled commit latches nothing. -/
theorem test_commit_and_cancel :
    (stateOf (exec .cmdSynCommit State.reset)).syn.pend = true ∧
      (stateOf (exec .cmdSynCancel (withSyn { State.reset.syn with pend := true }))).syn.pend = false := by decide

/-- An ill-formed term acts as the illegal transaction of its word (log 10). -/
theorem test_illformed_term :
    answer (.rdSynAct 6) State.reset = some 0 ∧ (stateOf (exec (.rdSynAct 6) State.reset)).busErr = true := by decide

/-- A placed word is the next step's (log 1). -/
theorem test_withFetchWord :
    (stateOf (step (State.reset.withFetchWord 32 0x80310032))).pid.sp = 50 := by decide

/-! ### Witnesses: a state and operands that meet the hypotheses of each statement that has some -/

/-- The reset state with the given moves to come. -/
def scheduled (l : List Stimulus) : State := { State.reset with schedule := l }

/-- A frame that started at TCNT 5 with all six outputs high and the shortest targets. -/
def runningFrame : State := {
  withSyn { State.reset.syn with en := true, outen := 0x3F, active := 0x3F, level := 0x3F, fstart := 5 } with
  tcnt := 5 }

/-- The running frame meets the invariant, with every output active. -/
theorem runningFrame_inv : runningFrame.Inv := by
  have ht : ∀ o : Slot, runningFrame.syn.onAt[o] = 0 ∧ runningFrame.syn.offAt[o] = 8000 ∧
      runningFrame.syn.act[o].toNat = 8000 ∧ runningFrame.syn.level.getLsbD o.val = true ∧
      runningFrame.syn.outen.getLsbD o.val = true := by decide
  have h0 : elapsed runningFrame = 0 := by decide
  refine ⟨by unfold State.RegistersLegal; decide, by unfold State.EdgesTracked; decide, ⟨by decide, by decide, ?_⟩,
    ?_, ?_, ?_⟩
  · intro o h
    rw [(ht o).2.2.2.2] at h
    cases h
  · intro _ _
    rw [h0]
    decide
  · intro o
    obtain ⟨h1, h2, -⟩ := ht o
    omega
  · intro o _
    obtain ⟨h1, h2, h3, h4, -⟩ := ht o
    rw [h1, h2, h3, h4, h0]
    exact ⟨Nat.le_refl _, Nat.le_add_right _ _, fun _ => ⟨rfl, rfl⟩, fun _ => rfl⟩

theorem witness_DecodeOfEncodeIsTheInstruction :
    (Instr.wrSynRoute0 0x5555).wellFormed = true ∧ (Instr.rdSynCmd 5).wellFormed = true ∧
      (Instr.wrCapCenter 3 0xFFFF).wellFormed = true := by decide

theorem witness_EncodeOfDecodeIsTheWord :
    decode 0x8023FFFF#32 = .ok (.wrCapCenter 3 0xFFFF) ∧ decode 0x0023FFFF#32 = .ok (.rdCapCenter 3) := by decide

theorem witness_StepRunsTheDecodedTransaction :
    (scheduled [.host 0x80310032#32, .reset]).schedule = .host 0x80310032#32 :: [.reset] ∧
      decode 0x80310032#32 = .ok (.wrPidSp 50) ∧ decodeTableWord 32 0x80310032 = some (.wrPidSp 50) := by decide

theorem witness_StepTakesTheMovesOfTheAgents :
    (scheduled [.tick 1 noDelay, .reset]).schedule = .tick 1 noDelay :: [.reset] ∧
      (scheduled [.reset]).schedule = .reset :: [] ∧ State.reset.schedule = [] := by decide

theorem witness_IllegalTransactionOnlyFlagsTheError :
    (scheduled [.host 0x80041234#32]).schedule = .host 0x80041234#32 :: [] ∧
      decode 0x80041234#32 = .error .readOnly ∧
      (scheduled [.host 0x00060000#32]).schedule = .host 0x00060000#32 :: [] ∧
      decode 0x00060000#32 = .error .unmapped := by decide

theorem witness_ReadsHaveNoSideEffect :
    (0x001D0000#32).getLsbD 31 = false ∧ decode 0x001D0000#32 = .ok (.rdCapAxis 1) ∧
      (0x00050000#32).getLsbD 31 = false ∧ decode 0x00050000#32 = .error .readOfCmd := by decide

theorem witness_CaptureTickOnEachChannel :
    let s := withCap { State.reset.cap with en := 7, prev := 6, riseSeen := 2 }
    (s.cap.en.getLsbD 0 = true ∧ s.cap.prev.getLsbD 0 = false ∧ (1#4).getLsbD 0 = true) ∧
      (s.cap.en.getLsbD 1 = true ∧ s.cap.prev.getLsbD 1 = true ∧ (1#4).getLsbD 1 = false ∧
        s.cap.riseSeen.getLsbD 1 = true) ∧
      (s.cap.prev.getLsbD 2 = true ∧ (1#4).getLsbD 2 = false ∧ s.cap.riseSeen.getLsbD 2 = false) ∧
      s.cap.en.getLsbD 3 = false := by decide

/-- Two states and two samples that agree on channel 1 and differ on every other one. -/
theorem witness_CaptureChannelsAreIndependent :
    let s1 := withCap { State.reset.cap with en := 2, prev := 2, riseSeen := 2 }
    let s2 := withCap { State.reset.cap with en := 15, prev := 7, riseSeen := 6, width := #v[9, 0, 9, 9] }
    (0#4).getLsbD 1 = (13#4).getLsbD 1 ∧ s1.tcnt = s2.tcnt ∧ s1.cap.en.getLsbD 1 = s2.cap.en.getLsbD 1 ∧
      s1.cap.prev.getLsbD 1 = s2.cap.prev.getLsbD 1 ∧ s1.cap.riseSeen.getLsbD 1 = s2.cap.riseSeen.getLsbD 1 ∧
      s1.cap.valid.getLsbD 1 = s2.cap.valid.getLsbD 1 ∧ s1.cap.start[1] = s2.cap.start[1] ∧
      s1.cap.width[1] = s2.cap.width[1] ∧
      perform (.tick 0 noDelay) s1 = .next (tick 0 (boundedDraws noDelay) s1) ∧
      perform (.tick 13 noDelay) s2 = .next (tick 13 (boundedDraws noDelay) s2) :=
  ⟨by decide, by decide, by decide, by decide, by decide, by decide, by decide, by decide, rfl, rfl⟩

theorem witness_PulsePublishesItsTicks :
    let s := withCap { State.reset.cap with en := 4 }
    let l : List (BitVec 4 × Draws) := [(4, noDelay), (5, noDelay)]
    s.cap.en.getLsbD 2 = true ∧ s.cap.prev.getLsbD 2 = false ∧ l ≠ [] ∧ (∀ x ∈ l, x.1.getLsbD 2 = true) ∧
      (3#4).getLsbD 2 = false := by decide

theorem witness_NoEdgeFreezesTheWidth :
    let s := withCap { State.reset.cap with en := 4, prev := 4 }
    ∀ x ∈ ([(4, noDelay), (7, noDelay)] : List (BitVec 4 × Draws)), x.1.getLsbD 2 = s.cap.prev.getLsbD 2 := by decide

theorem witness_EqualFencesMeanNoPublish :
    let l : List Stimulus := [.host 0x80310032#32, .tick 1 noDelay, .host 0x00110000#32]
    ∃ t, runMoves l State.reset = some t ∧ (∀ m ∈ l, movesReset m = false) ∧ publishCount l State.reset < 65536 ∧
      t.cap.fence = State.reset.cap.fence :=
  ⟨_, rfl, by decide, by decide, by decide⟩

theorem witness_YawAndRateLaws :
    (let p := State.reset.pid;
      p.iEn = true ∧ p.dEn = true ∧ p.iShift = 2 ∧ p.dShift = 4 ∧ p.kp = 0x0100 ∧ p.elim = 1023 ∧ p.eps = 0) ∧
      (let p := { State.reset.pid with iEn := false, dEn := false, elim := 32767 };
        p.iEn = false ∧ p.dEn = false ∧ p.kp = 0x0100 ∧ p.elim = 32767) := by decide

/-- The largest legal nibbles and the smallest illegal one, in each register's highest route. -/
theorem witness_RouteWritesStoreSlotNumbers :
    (∀ j < 4, (0x5555#16).toNat / 16 ^ j % 16 ≤ 5) ∧ (∀ j < 2, (0xFF55#16).toNat / 16 ^ j % 16 ≤ 5) ∧
      (∃ j < 4, 5 < (0x6555#16).toNat / 16 ^ j % 16) ∧ (∃ j < 2, 5 < (0x0065#16).toNat / 16 ^ j % 16) :=
  ⟨by decide, by decide, ⟨3, by decide, by decide⟩, ⟨1, by decide, by decide⟩⟩

theorem witness_SequencerEnableWrite :
    (State.reset.syn.en = false ∧ (1#16).getLsbD 0 = true) ∧
      (runningFrame.syn.en = true ∧ (0xFFFE#16).getLsbD 0 = false) ∧
      (runningFrame.syn.en = (1#16).getLsbD 0 ∧ State.reset.syn.en = (0#16).getLsbD 0) := by decide

/-- A requested first frame, and a frame that ends exactly now. -/
theorem witness_FrameStartTick :
    (let s := withSyn { State.reset.syn with en := true, startReq := true };
      s.syn.en = true ∧ s.syn.startReq = true) ∧
      (let s := { runningFrame with tcnt := 17780 };
        s.syn.en = true ∧ 16000 + s.syn.low.toNat = (s.tcnt + 1 - s.syn.fstart).toNat) := by decide

/-- A disabled sequencer, and the last tick inside a frame. -/
theorem witness_TickInsideAFrame :
    State.reset.syn.en = false ∧
      (let s := { runningFrame with tcnt := 17779 };
        s.syn.en = true ∧ s.syn.startReq = false ∧
          (s.tcnt + 1 - s.syn.fstart).toNat + 1 = 16000 + s.syn.low.toNat) := by decide

theorem witness_SlowOutputIsHeldOnSkippedFrames :
    let y := { runningFrame.syn with slow := 0x10, div := 2 }
    (y.en = true ∧ y.outen.getLsbD 4 = true ∧ y.slow.getLsbD 4 = true) ∧
      ({ y with startReq := true }.startReq = true) ∧
      (y.startReq = false ∧ 16000 + y.low.toNat ≤ (17780 + 1 - y.fstart : Reg).toNat ∧ y.divph.toNat < y.div.toNat) ∧
      ({ y with active := 0x0F }.active.getLsbD 4 = false ∧
        (17779 + 1 - y.fstart : Reg).toNat < 16000 + y.low.toNat) := by decide

/-- Both clauses, at their longest runs. -/
theorem witness_FramesRepeatEveryFrameLength :
    runningFrame.syn.en = true ∧ runningFrame.syn.startReq = false ∧ elapsed runningFrame = 0 ∧
      runningFrame.syn.low.toNat ≤ 49535 ∧
      (List.replicate 17775 ((0#4, noDelay) : BitVec 4 × Draws)).length < 16000 + runningFrame.syn.low.toNat ∧
      (List.replicate 17776 ((0#4, noDelay) : BitVec 4 × Draws)).length = 16000 + runningFrame.syn.low.toNat := by
  refine ⟨rfl, rfl, by decide, by decide, ?_, ?_⟩ <;> rw [List.length_replicate] <;> decide

theorem witness_CompareOutputIsHighForActTicks :
    runningFrame.Inv ∧ runningFrame.syn.en = true ∧ runningFrame.syn.startReq = false ∧ elapsed runningFrame = 0 ∧
      runningFrame.syn.active.getLsbD 3 = true ∧ (3 : Slot).val ≤ 3 ∧
      ([(0, noDelay)] : List (BitVec 4 × Draws)).length < 16000 + runningFrame.syn.low.toNat :=
  ⟨runningFrame_inv, rfl, rfl, by decide, by decide, by decide, by decide⟩

theorem witness_PolledOutputSwitchesWithinJitter :
    runningFrame.Inv ∧ runningFrame.syn.en = true ∧ runningFrame.syn.startReq = false ∧ elapsed runningFrame = 0 ∧
      runningFrame.syn.active.getLsbD 5 = true ∧ 3 < (5 : Slot).val ∧
      runningFrame.syn.level.getLsbD 5 = decide (runningFrame.syn.onAt[5] = 0) ∧
      ([(0, noDelay)] : List (BitVec 4 × Draws)).length < 16000 + runningFrame.syn.low.toNat :=
  ⟨runningFrame_inv, rfl, rfl, by decide, by decide, by decide, by decide, by decide⟩

theorem witness_InvariantIsKeptByEveryStep :
    ({ runningFrame with schedule := [.reset] } : State).Inv ∧
      ∃ t, step { runningFrame with schedule := [.reset] } = .next t :=
  ⟨runningFrame_inv, _, rfl⟩

theorem witness_PendingBitsAreClearedOnlyByAckOrReset :
    let s := { State.reset with irqPend := 0x011 }
    ∃ t, perform (.host 0x80020001#32) s = .next t ∧ s.irqPend.getLsbD 0 = true ∧ t.irqPend.getLsbD 0 = false :=
  ⟨_, rfl, by decide, by decide⟩

/-- BUSERR set by an illegal word, and cleared by CLR_ERR. -/
theorem witness_BusErrChangesOnlyByItsEvents :
    (∃ t, perform (.host 0x00050000#32) State.reset = .next t ∧ State.reset.busErr = false ∧ t.busErr = true) ∧
      ∃ t, perform (.host 0x80050001#32) { State.reset with busErr := true } = .next t ∧ t.busErr = false :=
  ⟨⟨_, rfl, rfl, rfl⟩, _, rfl, rfl⟩

theorem witness_TcntChangesOnlyByTickOrReset :
    (∃ t, perform (.tick 0 noDelay) State.reset = .next t) ∧ movesReset (.tick 0 noDelay) = false ∧
      (∃ t, perform (.host 0x80050001#32) State.reset = .next t) ∧ movesReset (.host 0x80050001#32) = false :=
  ⟨⟨_, rfl⟩, rfl, ⟨_, rfl⟩, by decide⟩

/-- A tick that publishes on channel 0, and one that records a rise on it. -/
theorem witness_CaptureValuesAreWrittenByTheirEdgesAlone :
    (let s := withCap { State.reset.cap with en := 1, prev := 1, riseSeen := 1, start := #v[9, 0, 0, 0] };
      ∃ t, perform (.tick 0 noDelay) s = .next t ∧ t.cap.width[0] ≠ s.cap.width[0]) ∧
      (let s := withCap { State.reset.cap with en := 1 };
        ∃ t, perform (.tick 1 noDelay) s = .next t ∧ t.cap.start[0] ≠ s.cap.start[0]) :=
  ⟨⟨_, rfl, by decide⟩, _, rfl, by decide⟩

theorem witness_PidResultsAreWrittenByTheirCommandsAlone :
    let s := withPid { State.reset.pid with sp := 50 }
    ∃ t, perform (.host 0x80050010#32) s = .next t ∧ movesReset (.host 0x80050010#32) = false ∧ t.pid.out ≠ s.pid.out :=
  ⟨_, rfl, by decide, by decide⟩

theorem witness_TargetsAreWrittenByALatchAlone :
    let s := withSyn {
      State.reset.syn with en := true, startReq := true, pend := true, cmd := #v[500, 0, 0, 0, 0, 0] }
    ∃ t, perform (.tick 0 noDelay) s = .next t ∧ movesReset (.tick 0 noDelay) = false ∧ t.syn.act ≠ s.syn.act :=
  ⟨_, rfl, rfl, by decide⟩

theorem witness_PendingDoesNotDependOnEnables :
    let s := withCap { State.reset.cap with en := 1 }
    ∃ t u, perform (.tick 1 noDelay) s = .next t ∧ perform (.tick 1 noDelay) { s with irqEn := 0x7FF } = .next u :=
  ⟨_, _, rfl, rfl⟩

theorem witness_RepeatableTransactionsAreIdempotent :
    (∃ t, exec .cmdClrErr State.reset = .next t) ∧ (∃ t, exec .cmdCapClr State.reset = .next t) ∧
      (∃ t, exec .cmdPidClr State.reset = .next t) ∧ (∃ t, exec .cmdSynCommit State.reset = .next t) ∧
      (∃ t, exec .cmdSynCancel State.reset = .next t) ∧ ∃ t, exec (.wrIrqPend 3) State.reset = .next t :=
  ⟨⟨_, rfl⟩, ⟨_, rfl⟩, ⟨_, rfl⟩, ⟨_, rfl⟩, ⟨_, rfl⟩, _, rfl⟩

theorem witness_WritingBackTheReadValueChangesNothing :
    runningFrame.Inv ∧ ∃ t, perform (.host (busWord false 0x41 0)) runningFrame = .next t ∧
      t.busRdata = some 0x003F :=
  ⟨runningFrame_inv, _, rfl, rfl⟩

end Sys2Proof.Tests
end

section
/-! The primitives of rounding and the step of each agent (spec 00_scope.md R7, R8, R10). -/

namespace Sys2Proof.Machine

/-! ### Rounding -/

/-- 00_scope.md R10: `asr` is the floor of the exact quotient. -/
theorem asr_eq_floor (v : Int) (k : Nat) : asr v k = ⌊(v : ℚ) / 2 ^ k⌋ := by
  have h := Rat.floor_intCast_div_natCast v (2 ^ k)
  push_cast at h
  exact h.symm

/-- 00_scope.md R10: the 7 that `sdiv8` adds below 0 turns the floor into the quotient rounded toward zero. -/
theorem sdiv8_eq_tdiv (v : Int) : sdiv8 v = Int.tdiv v 8 := by
  unfold sdiv8 asr
  split
  case isTrue hv => rw [Int.tdiv_eq_ediv_of_nonneg hv]; rfl
  case isFalse hv =>
    have hneg : Int.tdiv v 8 = -(-v / 8) := by
      rw [← Int.tdiv_eq_ediv_of_nonneg (by omega), Int.neg_tdiv, neg_neg]
    omega

theorem sdiv8_neg (v : Int) : sdiv8 (-v) = -sdiv8 v := by
  rw [sdiv8_eq_tdiv, sdiv8_eq_tdiv, Int.neg_tdiv]

/-- Settles O34: `asr` as a floor, `sdiv8` as the library's truncating division, whose oddness `sdiv8` inherits. -/
theorem shiftsRoundAsTheSpecSays : Obligations.ShiftsRoundAsTheSpecSays :=
  ⟨asr_eq_floor, sdiv8_eq_tdiv, sdiv8_neg⟩

/-! ### The step -/

theorem step_of_schedule_cons {s : State} {m : Stimulus} {rest : List Stimulus} (h : s.schedule = m :: rest) :
    step s = perform m { s with schedule := rest } := by
  obtain ⟨m', rest', hs, hstep⟩ | ⟨hs, -⟩ := step_cases s
  · obtain ⟨rfl, rfl⟩ : m = m' ∧ rest = rest' := by simpa [h] using hs
    exact hstep
  · simp [h] at hs

theorem step_of_schedule_nil {s : State} (h : s.schedule = []) :
    step s = perform (Config.freeStimulus s.drawIx) { s with drawIx := s.drawIx + 1 } := by
  obtain ⟨m, rest, hs, -⟩ | ⟨-, hstep⟩ := step_cases s
  · simp [h] at hs
  · exact hstep

/-- The word placed in front is performed at the state it was placed in. -/
theorem step_withFetchWord (s : State) (nbits w : Nat) :
    step (s.withFetchWord nbits w) = perform (.host (BitVec.ofNat 32 (w % 2 ^ nbits))) s :=
  step_of_schedule_cons rfl

theorem decodeTableWord_eq_some {nbits w : Nat} {i : Instr} :
    decodeTableWord nbits w = some i ↔ decode (BitVec.ofNat 32 (w % 2 ^ nbits)) = .ok i := by
  unfold decodeTableWord
  cases decode (BitVec.ofNat 32 (w % 2 ^ nbits)) <;> simp

/-- Settles O6: a scheduled or placed word is performed by the host, and a word that decodes runs its instruction. -/
theorem stepRunsTheDecodedTransaction : Obligations.StepRunsTheDecodedTransaction := by
  constructor
  · intro s t rest i hs hd
    rw [step_of_schedule_cons hs, perform_host_ok t i _ hd]
  · intro s nbits w i hd
    rw [step_withFetchWord, perform_host_ok _ i s (decodeTableWord_eq_some.mp hd)]

/-- 40_global.md R100: the order of a tick, with the effect of `silent` written out. -/
theorem tick_eq (levels : BitVec 4) (d : Draws) (s : State) :
    tick levels d s = synthTick d (captureTick levels { s with busRdata := none, tcnt := s.tcnt + 1 }) := rfl

/-- Settles O7, by the move that is next: a scheduled tick, a scheduled reset, or the free move. -/
theorem stepTakesTheMovesOfTheAgents : Obligations.StepTakesTheMovesOfTheAgents := by
  refine ⟨?tick, ?reset, ?free⟩
  case tick =>
    intro s levels d rest hs
    rw [step_of_schedule_cons hs, perform_tick, tick_eq]
  case reset =>
    intro s rest hs
    rw [step_of_schedule_cons hs, perform_reset]
  case free => exact fun s hs => step_of_schedule_nil hs

end Sys2Proof.Machine
end

section
/-! What the decoder admits: a decoded word is a well-formed transaction, and one word alone is CMD SOFT_RESET (spec
30_encoding.md R83, R85, R89). -/

namespace Sys2Proof.Machine

open Sys2Proof.Laws.EncodeHeader (isWrite)

/-- Every instruction a decoding answers has the property. -/
def Admits (P : Instr → Prop) (r : Except Illegal Instr) : Prop := ∀ i : Instr, r = .ok i → P i

theorem Admits.ok {P : Instr → Prop} {i : Instr} (h : P i) : Admits P (.ok i) := by
  rintro _ ⟨⟩
  exact h

theorem Admits.error {P : Instr → Prop} (e : Illegal) : Admits P (.error e) := fun _ h => nomatch h

theorem Admits.ite {P : Instr → Prop} {c : Prop} [Decidable c] {r q : Except Illegal Instr} (hr : c → Admits P r)
    (hq : Admits P q) : Admits P (if c then r else q) := by
  split
  case isTrue hc => exact hr hc
  case isFalse => exact hq

/-- The read rows: only the two with an index have a constraint (30_encoding.md R85). -/
theorem decodeRead_admits (a : Addr) :
    Admits (fun i => i.wellFormed = true ∧ isWrite i = false) (decodeRead a) := by
  unfold decodeRead
  repeat refine .ite (fun _ => .ok ⟨rfl, rfl⟩) ?_
  refine .ite (fun hk => .ok ⟨hk.2, rfl⟩) ?_
  refine .ite (fun ho => .ok ⟨ho.2, rfl⟩) ?_
  exact .ite (fun _ => .error _) (.error _)

theorem decodeCommand_admits (v : Reg) :
    Admits (fun i => i.wellFormed = true ∧ (i = .cmdSoftReset → v = 0x00A5#16)) (decodeCommand v) := by
  unfold decodeCommand
  iterate 6 refine .ite (fun _ => .ok ⟨rfl, nofun⟩) ?_
  exact .ite (fun hv => .ok ⟨rfl, fun _ => hv⟩) (.error _)

/-- The write rows: the ROUTE writes and the indexed one have a constraint, and SOFT_RESET is a command code
(30_encoding.md R83, R85, R87). -/
theorem decodeWrite_admits (a : Addr) (v : Reg) :
    Admits (fun i => i.wellFormed = true ∧ (i = .cmdSoftReset → a = 0x05#8 ∧ v = 0x00A5#16)) (decodeWrite a v) := by
  unfold decodeWrite
  refine .ite (fun ha i hi => ?_) ?_
  · obtain ⟨hwf, hreset⟩ := decodeCommand_admits v i hi
    exact ⟨hwf, fun h => ⟨ha, hreset h⟩⟩
  repeat refine .ite (fun _ => .ok ⟨rfl, nofun⟩) ?_
  refine .ite (fun _ => .ite (fun hv => .ok ⟨hv, nofun⟩) (.error _)) ?_
  refine .ite (fun _ => .ite (fun hv => .ok ⟨hv, nofun⟩) (.error _)) ?_
  refine .ite (fun hk => .ok ⟨hk.2, nofun⟩) ?_
  exact .ite (fun _ => .error _) (.error _)

/-- 30_encoding.md R81: a word that decodes meets the constraint of its row. -/
theorem wellFormed_of_decode {t : BusWord} {i : Instr} (h : decode t = .ok i) : i.wellFormed = true := by
  have hdec : Admits (fun i => i.wellFormed = true) (decode t) :=
    .ite (fun _ => .error _) (.ite (fun _ i hi => (decodeWrite_admits _ _ i hi).1)
      (fun i hi => (decodeRead_admits _ i hi).1))
  exact hdec i h

/-- 30_encoding.md R83: CMD SOFT_RESET has one word. -/
theorem word_of_decode_cmdSoftReset {t : BusWord} (h : decode t = .ok .cmdSoftReset) : t = 0x800500A5#32 := by
  rw [decode_eq] at h
  split_ifs at h with hrsv hw
  · obtain ⟨-, hreset⟩ := decodeWrite_admits _ _ _ h
    obtain ⟨haddr, hdata⟩ := hreset rfl
    rw [← busWord_of_fields t (not_not.mp hrsv), hw, haddr, hdata]
    rfl
  · exact nomatch (decodeRead_admits _ _ h).2

end Sys2Proof.Machine
end

section
/-! What one move of one agent can do, said once (spec 00_scope.md R7, 30_encoding.md R81). -/

namespace Sys2Proof.Machine

/-- What a legal transaction other than CMD SOFT_RESET can do to the state: the reads together, and the writes and
commands by the registers they write. -/
inductive TransactionEffect (s : State) : Instr → State → Prop where
  /-- The 35 reads (30_encoding.md R82). -/
  | read (i : Instr) (v : Reg) : TransactionEffect s i (reply v s)
  /-- WR IRQ_PEND and WR IRQ_EN (40_global.md R105, R107). -/
  | interrupts (i : Instr) (pend en : BitVec 11) :
      TransactionEffect s i { silent s with irqPend := pend, irqEn := en }
  /-- CMD CLR_ERR (40_global.md R110). -/
  | clearError : TransactionEffect s .cmdClrErr { silent s with busErr := false }
  /-- WR CAP_CTRL, WR CAP_CENTER and CMD CAP_CLR: a rising edge is remembered only where it was, and its channel is not
  disabled (41_capture.md R127, R133, R134). -/
  | capture (i : Instr) (en riseSeen valid : BitVec 4) (center : Vector Reg 4)
      (seen : ∀ b : Nat, riseSeen.getLsbD b = true →
        s.cap.riseSeen.getLsbD b = true ∧ (s.cap.en.getLsbD b = true → en.getLsbD b = true)) :
      TransactionEffect s i {
        silent s with
        cap := { s.cap with en := en, riseSeen := riseSeen, valid := valid, center := center } }
  /-- The writes of the PID unit (42_pid.md R153 to R165): none writes a result register. -/
  | pidConfig (i : Instr) (p : Pid) (integ : p.integ = s.pid.integ) (lastErr : p.lastErr = s.pid.lastErr)
      (out : p.out = s.pid.out) (stat : p.stat = s.pid.stat) : TransactionEffect s i { silent s with pid := p }
  /-- CMD PID_STEP (42_pid.md R170). -/
  | pidStep : TransactionEffect s .cmdPidStep { silent s with pid := pidStep s.pid }
  /-- CMD PID_CLR (42_pid.md R171). -/
  | pidClear : TransactionEffect s .cmdPidClr
      { silent s with pid := { s.pid with integ := 0, lastErr := 0, out := 0, stat := 0 } }
  /-- The writes of the synthesizer that no output shows before the next frame start, SYN_COMMIT and SYN_CANCEL
  (43_synth.md R193 to R203, R208, R210, R211), and a write of SYN_CTRL that keeps EN (R189). -/
  | synConfig (i : Instr) (wide slow : BitVec 6) (low : Reg) (div : BitVec 8) (route : Vector Slot 6)
      (cmd : Vector Reg 6) (pend : Bool) (lowLegal : low = s.syn.low ∨ low.toNat ≤ 49535)
      (divLegal : div = s.syn.div ∨ div ≠ 0#8) :
      TransactionEffect s i {
        silent s with
        syn := {
          s.syn with wide := wide, slow := slow, low := low, div := div, route := route, cmd := cmd, pend := pend } }
  /-- WR SYN_CTRL that enables the sequencer (43_synth.md R189). -/
  | synEnable (i : Instr) (disabled : s.syn.en = false) :
      TransactionEffect s i { silent s with syn := { s.syn with en := true, startReq := true } }
  /-- WR SYN_CTRL that disables the sequencer (43_synth.md R189). -/
  | synDisable (i : Instr) :
      TransactionEffect s i { silent s with syn := { s.syn with en := false, startReq := false, level := 0, active := 0 } }
  /-- WR SYN_OUTEN (43_synth.md R191). -/
  | outputEnable (i : Instr) (outen : BitVec 6) :
      TransactionEffect s i {
        silent s with
        syn := { s.syn with outen := outen, level := s.syn.level &&& outen, active := s.syn.active &&& outen } }

/-- A transaction that writes nothing at all. -/
theorem TransactionEffect.noWrite (i : Instr) (s : State) : TransactionEffect s i (silent s) :=
  .interrupts i s.irqPend s.irqEn

theorem exec_wrCapCtrl_effect (v : Reg) (s : State) :
    ∃ t, exec (.wrCapCtrl v) s = .next t ∧ TransactionEffect s (.wrCapCtrl v) t := by
  refine ⟨_, rfl, .capture _ (lowBits 4 v) (s.cap.riseSeen &&& (~~~s.cap.en ||| lowBits 4 v)) s.cap.valid s.cap.center ?_⟩
  intro b hb
  simp only [BitVec.getLsbD_and, BitVec.getLsbD_or, BitVec.getLsbD_not, Bool.and_eq_true, Bool.or_eq_true,
    Bool.not_eq_true'] at hb
  obtain ⟨hseen, ⟨-, hoff⟩ | hon⟩ := hb
  · exact ⟨hseen, fun hen => absurd hen (by simp [hoff])⟩
  · exact ⟨hseen, fun _ => hon⟩

/-- 43_synth.md R189: enabling and disabling change the outputs' state, a write that keeps EN changes nothing. -/
theorem exec_wrSynCtrl_effect (v : Reg) (s : State) :
    ∃ t, exec (.wrSynCtrl v) s = .next t ∧ TransactionEffect s (.wrSynCtrl v) t := by
  by_cases hkeep : v.getLsbD 0 = s.syn.en
  · exact ⟨_, by simp only [exec, execWrSynCtrl, hkeep, Bool.not_and_self, Bool.and_not_self]; rfl, .noWrite _ s⟩
  · cases hen : s.syn.en with
    | false =>
      have hv : v.getLsbD 0 = true := by simpa [hen] using hkeep
      exact ⟨_, by simp only [exec, execWrSynCtrl, hen, hv]; rfl, .synEnable _ hen⟩
    | true =>
      have hv : v.getLsbD 0 = false := by simpa [hen] using hkeep
      exact ⟨_, by simp only [exec, execWrSynCtrl, hen, hv]; rfl, .synDisable _⟩

theorem nibbleSlot_of_legal {x : BitVec 4} (h : legalNibble x = true) : ∃ o, nibbleSlot x = some o := by
  have hx : x.toNat < 6 := Nat.lt_succ_of_le (of_decide_eq_true h)
  exact ⟨⟨x.toNat, hx⟩, dif_pos hx⟩

theorem indexSlot_of_legal {k : BitVec 3} (h : legalSlot k = true) : ∃ o, indexSlot k = some o := by
  have hk : k.toNat < 6 := Nat.lt_succ_of_le (of_decide_eq_true h)
  exact ⟨⟨k.toNat, hk⟩, dif_pos hk⟩

/-- Every legal transaction but SOFT_RESET completes, and with an effect of the list. -/
theorem exec_effect (i : Instr) (s : State) (hwf : i.wellFormed = true) (hreset : i ≠ .cmdSoftReset) :
    ∃ t, exec i s = .next t ∧ TransactionEffect s i t := by
  cases i with
  | cmdSoftReset => exact absurd rfl hreset
  | wrIrqPend v => exact ⟨_, rfl, .interrupts _ _ s.irqEn⟩
  | wrIrqEn v => exact ⟨_, rfl, .interrupts _ s.irqPend _⟩
  | cmdClrErr => exact ⟨_, rfl, .clearError⟩
  | cmdCapClr => exact ⟨_, rfl, .capture _ s.cap.en 0 0 s.cap.center (by simp)⟩
  | wrCapCtrl v => exact exec_wrCapCtrl_effect v s
  | wrCapCenter n v =>
    exact ⟨_, rfl, .capture _ s.cap.en s.cap.riseSeen s.cap.valid _ fun _ hseen => ⟨hseen, id⟩⟩
  | wrPidCtrl v | wrPidSp v | wrPidPv v | wrPidKp v | wrPidElim v | wrPidEps v | wrPidColl v =>
    exact ⟨_, rfl, .pidConfig _ _ rfl rfl rfl rfl⟩
  | cmdPidStep => exact ⟨_, rfl, .pidStep⟩
  | cmdPidClr => exact ⟨_, rfl, .pidClear⟩
  | wrSynCtrl v => exact exec_wrSynCtrl_effect v s
  | wrSynOuten v => exact ⟨_, rfl, .outputEnable _ _⟩
  | wrSynLow v =>
    have hlow : (warlLow v).toNat ≤ 49535 := by rw [warlLow_toNat]; exact Nat.min_le_right _ _
    exact ⟨_, rfl, .synConfig _ _ _ _ _ _ _ _ (.inr hlow) (.inl rfl)⟩
  | wrSynDiv v => exact ⟨_, rfl, .synConfig _ _ _ _ _ _ _ _ (.inl rfl) (.inr (warlDiv_ne_zero v))⟩
  | wrSynRoute0 v =>
    simp only [Instr.wellFormed, legalRoute0, Bool.and_eq_true] at hwf
    obtain ⟨⟨⟨h0, h1⟩, h2⟩, h3⟩ := hwf
    obtain ⟨r0, h0⟩ := nibbleSlot_of_legal h0
    obtain ⟨r1, h1⟩ := nibbleSlot_of_legal h1
    obtain ⟨r2, h2⟩ := nibbleSlot_of_legal h2
    obtain ⟨r3, h3⟩ := nibbleSlot_of_legal h3
    exact ⟨_, by simp only [exec, execWrSynRoute0, h0, h1, h2, h3]; rfl, .synConfig _ _ _ _ _ _ _ _ (.inl rfl) (.inl rfl)⟩
  | wrSynRoute1 v =>
    simp only [Instr.wellFormed, legalRoute1, Bool.and_eq_true] at hwf
    obtain ⟨h4, h5⟩ := hwf
    obtain ⟨r4, h4⟩ := nibbleSlot_of_legal h4
    obtain ⟨r5, h5⟩ := nibbleSlot_of_legal h5
    exact ⟨_, by simp only [exec, execWrSynRoute1, h4, h5]; rfl, .synConfig _ _ _ _ _ _ _ _ (.inl rfl) (.inl rfl)⟩
  | wrSynCmd k v =>
    obtain ⟨o, ho⟩ := indexSlot_of_legal hwf
    exact ⟨_, by simp only [exec, execWrSynCmd, ho]; rfl, .synConfig _ _ _ _ _ _ _ _ (.inl rfl) (.inl rfl)⟩
  | rdSynCmd k =>
    obtain ⟨o, ho⟩ := indexSlot_of_legal hwf
    exact ⟨_, by simp only [exec, execRdSynCmd, ho]; rfl, .read _ _⟩
  | rdSynAct k =>
    obtain ⟨o, ho⟩ := indexSlot_of_legal hwf
    exact ⟨_, by simp only [exec, execRdSynAct, ho]; rfl, .read _ _⟩
  | wrSynWide v | wrSynSlow v | cmdSynCommit | cmdSynCancel =>
    exact ⟨_, rfl, .synConfig _ _ _ _ _ _ _ _ (.inl rfl) (.inl rfl)⟩
  | _ => exact ⟨_, rfl, .read _ _⟩

/-- What one move can do: it is a reset, a tick, an illegal word, or a legal transaction other than SOFT_RESET. -/
theorem perform_cases {m : Stimulus} {s t : State} (h : perform m s = .next t) :
    (movesReset m = true ∧ t = resetState s) ∨
      (∃ levels d, m = .tick levels d ∧ t = tick levels (boundedDraws d) s) ∨
      (∃ w e, m = .host w ∧ decode w = .error e ∧ t = illegalTransaction w s) ∨
      (∃ w i, m = .host w ∧ decode w = .ok i ∧ TransactionEffect s i t) := by
  cases m with
  | reset =>
    rw [perform_reset] at h
    cases h
    exact .inl ⟨rfl, rfl⟩
  | tick levels d =>
    rw [perform_tick] at h
    cases h
    exact .inr (.inl ⟨levels, d, rfl, rfl⟩)
  | host w =>
    cases hd : decode w with
    | error e =>
      rw [perform_host_error w e s hd] at h
      cases h
      exact .inr (.inr (.inl ⟨w, e, rfl, hd, rfl⟩))
    | ok i =>
      rw [perform_host_ok w i s hd] at h
      by_cases hi : i = .cmdSoftReset
      · subst hi
        have ht : resetState s = t := Host.Outcome.next.inj h
        exact .inl ⟨by rw [word_of_decode_cmdSoftReset hd]; rfl, ht.symm⟩
      · obtain ⟨t', ht', heff⟩ := exec_effect i s (wellFormed_of_decode hd) hi
        rw [ht'] at h
        cases h
        exact .inr (.inr (.inr ⟨w, i, rfl, hd, heff⟩))

end Sys2Proof.Machine
end

section
/-! What the synthesizer's part of a tick leaves, on the registers and on each output (spec 43_synth.md R182, R183). -/

namespace Sys2Proof.Machine

/-- SynthTick holds a disabled sequencer, starts a frame, or moves the levels inside one (43_synth.md R182, R187). -/
theorem synthTick_cases (d : Draws) (s : State) :
    (s.syn.en = false ∧ synthTick d s = s) ∨
      (s.syn.en = true ∧ synthTick d s = frameStart d s) ∨
      (s.syn.en = true ∧ s.syn.startReq = false ∧ elapsed s < frameLen s.syn ∧
        synthTick d s = { s with syn := { s.syn with level := runOutputs (elapsed s) s.syn } }) := by
  unfold synthTick
  cases hen : s.syn.en with
  | false => exact .inl ⟨rfl, rfl⟩
  | true =>
    by_cases hstart : (s.syn.startReq || decide (frameLen s.syn ≤ elapsed s)) = true
    · exact .inr (.inl ⟨rfl, by rw [if_pos rfl, if_pos hstart]⟩)
    · have hinside : s.syn.startReq = false ∧ elapsed s < frameLen s.syn := by simpa using hstart
      exact .inr (.inr ⟨rfl, hinside.1, hinside.2, by rw [if_pos rfl, if_neg hstart]⟩)

/-- A frame start latches a pending commit, and only then it writes ACT and raises LATCH (43_synth.md R183). -/
theorem frameStart_latch (d : Draws) (s : State) :
    (frameStart d s).syn.act = (if s.syn.pend then latchedTargets s.syn else s.syn.act) ∧
      (frameStart d s).syn.pend = false ∧
      (frameStart d s).irqPend.getLsbD 9 = (s.syn.pend || s.irqPend.getLsbD 9) := by
  obtain ⟨active, level, onAt, offAt, h⟩ := frameStart_eq d s
  rw [h]
  refine ⟨rfl, rfl, ?_⟩
  dsimp only
  rw [frameIrqs_irqPend]
  simp

/-- The registers a frame start writes apart from the outputs' (43_synth.md R183). -/
theorem frameStart_registers (d : Draws) (s : State) :
    (frameStart d s).syn.startReq = false ∧ (frameStart d s).syn.fstart = s.tcnt ∧ (frameStart d s).tcnt = s.tcnt ∧
      (frameStart d s).syn.divph = nextPhase s.syn.startReq s.syn := by
  obtain ⟨active, level, onAt, offAt, h⟩ := frameStart_eq d s
  rw [h]
  exact ⟨rfl, rfl, rfl, rfl⟩

/-- What a frame start leaves alone. -/
theorem frameStart_frame (d : Draws) (s : State) :
    (frameStart d s).pid = s.pid ∧ (frameStart d s).cap = s.cap ∧ (frameStart d s).syn.en = s.syn.en ∧
      (frameStart d s).syn.outen = s.syn.outen ∧ (frameStart d s).syn.low = s.syn.low ∧
      (frameStart d s).syn.div = s.syn.div := by
  obtain ⟨active, level, onAt, offAt, h⟩ := frameStart_eq d s
  rw [h]
  exact ⟨rfl, rfl, rfl, rfl, rfl, rfl⟩

/-- What a frame start leaves on one output, in the registers of the frame it opens (43_synth.md R183 to R187). -/
theorem frameStart_output (d : Draws) (s : State) (o : Slot) :
    let y := (frameStart d s).syn
    y.active.getLsbD o.val = pulsesNow y o ∧
      y.onAt[o] = (if pulsesNow y o then (if o.val ≤ 3 then 0 else drawOn d o) else s.syn.onAt[o]) ∧
      y.offAt[o] = (if pulsesNow y o then
        (if o.val ≤ 3 then y.act[o].toNat else y.act[o].toNat + drawOff d o) else s.syn.offAt[o]) ∧
      y.level.getLsbD o.val =
        (s.syn.level.getLsbD o.val || (pulsesNow y o && decide (o.val ≤ 3 ∨ drawOn d o = 0))) := by
  have hopen : (frameStart d s).syn = openOutputs d (latchCommit (openFrame s.tcnt s.syn)) := rfl
  obtain ⟨hactive, honAt, hoffAt, hlevel⟩ := openOutputs_self d (latchCommit (openFrame s.tcnt s.syn)) o
  obtain ⟨active, level, onAt, offAt, hframe⟩ := openOutputs_frame d (latchCommit (openFrame s.tcnt s.syn))
  have hpulses : pulsesNow (openOutputs d (latchCommit (openFrame s.tcnt s.syn))) o =
      pulsesNow (latchCommit (openFrame s.tcnt s.syn)) o := by
    rw [hframe]; rfl
  have hact : (openOutputs d (latchCommit (openFrame s.tcnt s.syn))).act =
      (latchCommit (openFrame s.tcnt s.syn)).act := by
    rw [hframe]
  rw [hopen]
  dsimp only
  rw [hpulses, hact, hactive, honAt, hoffAt, hlevel, latchCommit_frame]
  exact ⟨rfl, rfl, rfl, rfl⟩

end Sys2Proof.Machine
end

section
/-! Which moves write BUSERR, TCNT, the capture values, the PID results and the turn-off targets (spec 10_state.md R28, R30,
R33, R34, R43, R53). -/

namespace Sys2Proof.Machine

/-! ### BUSERR -/

theorem TransactionEffect.busErr {s t : State} {i : Instr} (h : TransactionEffect s i t) :
    t.busErr = s.busErr ∨ (i = .cmdClrErr ∧ t.busErr = false) := by
  cases h with
  | clearError => exact .inr ⟨rfl, rfl⟩
  | _ => exact .inl rfl

/-- Settles O52, by the kind of the move: of the moves that are no reset, only an illegal word sets the flag and only
CLR_ERR clears it. -/
theorem busErrChangesOnlyByItsEvents : Obligations.BusErrChangesOnlyByItsEvents := by
  intro m s t h
  obtain ⟨hreset, rfl⟩ | ⟨levels, d, rfl, rfl⟩ | ⟨w, e, rfl, hd, rfl⟩ | ⟨w, i, rfl, hd, heff⟩ := perform_cases h
  case inl => exact ⟨fun _ hset => (nomatch hset), fun _ _ => .inl hreset⟩
  case inr.inl =>
    obtain ⟨-, -, hbus, -⟩ := tick_frame levels (boundedDraws d) s
    simp +contextual [hbus]
  case inr.inr.inl => exact ⟨fun _ _ => ⟨w, e, rfl, hd⟩, fun _ hclear => by simp at hclear⟩
  case inr.inr.inr =>
    obtain hbus | ⟨rfl, hbus⟩ := heff.busErr <;> rw [hbus]
    · simp +contextual
    · exact ⟨fun _ hset => (nomatch hset), fun _ _ => .inr ⟨w, rfl, hd⟩⟩

/-! ### TCNT -/

theorem TransactionEffect.tcnt {s t : State} {i : Instr} (h : TransactionEffect s i t) : t.tcnt = s.tcnt := by
  cases h <;> rfl

/-- Settles O53, by the kind of the move. -/
theorem tcntChangesOnlyByTickOrReset : Obligations.TcntChangesOnlyByTickOrReset := by
  intro m s t h hm
  obtain ⟨hreset, -⟩ | ⟨levels, d, rfl, rfl⟩ | ⟨w, e, rfl, -, rfl⟩ | ⟨w, i, rfl, -, heff⟩ := perform_cases h
  case inl => simp [hm] at hreset
  case inr.inl => exact (tick_frame levels (boundedDraws d) s).1
  case inr.inr.inl => exact illegalTransaction_tcnt w s
  case inr.inr.inr => exact heff.tcnt

/-! ### WIDTH and START -/

theorem mem_publishingChannels {levels : BitVec 4} {n : Chan} {s : State} :
    n ∈ publishingChannels levels s ↔ publishes levels n s = true := by
  have hn : n ∈ allChans := by revert n; decide
  simp only [publishingChannels, List.mem_filter, hn, true_and, publishes, fallsOn, Bool.and_eq_true]
  tauto

theorem TransactionEffect.captured {s t : State} {i : Instr} (h : TransactionEffect s i t) :
    t.cap.width = s.cap.width ∧ t.cap.start = s.cap.start := by
  cases h <;> exact ⟨rfl, rfl⟩

/-- A tick writes WIDTH[n] if channel n publishes, and START[n] if it records a rise (41_capture.md R121, R122). -/
theorem tick_captured (levels : BitVec 4) (d : Draws) (s : State) (n : Chan) :
    (publishes levels n s = false → (tick levels d s).cap.width[n] = s.cap.width[n]) ∧
      (recordsRise levels n s = false → (tick levels d s).cap.start[n] = s.cap.start[n]) := by
  obtain ⟨-, -, -, -, -, -, -, hcap⟩ := tick_frame levels d s
  obtain ⟨-, -, -, hstart, hwidth⟩ := captureTick_chan levels { silent s with tcnt := s.tcnt + 1#16 } n
  rw [hcap]
  constructor
  · intro hpub
    exact hwidth.trans (if_neg (Bool.eq_false_iff.mp hpub))
  · intro hrise
    exact hstart.trans (if_neg (Bool.eq_false_iff.mp hrise))

/-- Settles O54: no move but a tick writes the two arrays, and a tick writes them at the channel's own edges. -/
theorem captureValuesAreWrittenByTheirEdgesAlone : Obligations.CaptureValuesAreWrittenByTheirEdgesAlone := by
  intro m s t n h
  obtain ⟨-, rfl⟩ | ⟨levels, d, rfl, rfl⟩ | ⟨w, e, -, -, rfl⟩ | ⟨w, i, -, -, heff⟩ := perform_cases h
  case inl => exact ⟨fun hne => absurd rfl hne, fun hne => absurd rfl hne⟩
  case inr.inl =>
    obtain ⟨hwidth, hstart⟩ := tick_captured levels (boundedDraws d) s n
    constructor
    · intro hne
      exact ⟨levels, d, rfl, mem_publishingChannels.mpr (by_contra fun hpub => hne (hwidth (by simpa using hpub)))⟩
    · intro hne
      have hrise : recordsRise levels n s = true := by_contra fun hr => hne (hstart (by simpa using hr))
      simp only [recordsRise, risesOn, Bool.and_eq_true, Bool.not_eq_true'] at hrise
      obtain ⟨hen, hlow, hhigh⟩ := hrise
      exact ⟨levels, d, rfl, hen, hlow, hhigh⟩
  case inr.inr.inl => simp
  case inr.inr.inr =>
    obtain ⟨hwidth, hstart⟩ := heff.captured
    simp [hwidth, hstart]

/-! ### The PID results -/

theorem TransactionEffect.pidResults {s t : State} {i : Instr} (h : TransactionEffect s i t) :
    (i = .cmdPidStep ∨ i = .cmdPidClr) ∨ (t.pid.integ = s.pid.integ ∧ t.pid.lastErr = s.pid.lastErr ∧
      t.pid.out = s.pid.out ∧ t.pid.stat = s.pid.stat) := by
  cases h with
  | pidStep => exact .inl (.inl rfl)
  | pidClear => exact .inl (.inr rfl)
  | pidConfig _ p integ lastErr out stat => exact .inr ⟨integ, lastErr, out, stat⟩
  | _ => exact .inr ⟨rfl, rfl, rfl, rfl⟩

/-- Settles O55: a tick and an illegal word leave the PID unit alone, and of the legal transactions the two commands write
its results. -/
theorem pidResultsAreWrittenByTheirCommandsAlone : Obligations.PidResultsAreWrittenByTheirCommandsAlone := by
  intro m s t h hm hne
  obtain ⟨hreset, -⟩ | ⟨levels, d, rfl, rfl⟩ | ⟨w, e, rfl, -, rfl⟩ | ⟨w, i, rfl, hd, heff⟩ := perform_cases h
  case inl => simp [hm] at hreset
  case inr.inl =>
    obtain ⟨-, -, -, hpid, -⟩ := tick_frame levels (boundedDraws d) s
    simp [hpid] at hne
  case inr.inr.inl => simp at hne
  case inr.inr.inr =>
    obtain (rfl | rfl) | ⟨hinteg, hlast, hout, hstat⟩ := heff.pidResults
    · exact ⟨w, rfl, .inl hd⟩
    · exact ⟨w, rfl, .inr hd⟩
    · simp [hinteg, hlast, hout, hstat] at hne

/-! ### The turn-off targets -/

theorem TransactionEffect.act {s t : State} {i : Instr} (h : TransactionEffect s i t) : t.syn.act = s.syn.act := by
  cases h <;> rfl

/-- A tick that writes ACT latches a pending commit (43_synth.md R183). -/
theorem tick_act_ne {levels : BitVec 4} {d : Draws} {s : State} (hne : (tick levels d s).syn.act ≠ s.syn.act) :
    s.syn.pend = true ∧ (tick levels d s).syn.pend = false ∧ (tick levels d s).irqPend.getLsbD 9 = true := by
  obtain ⟨-, -, -, -, hsyn, -⟩ := captureTick_frame levels { silent s with tcnt := s.tcnt + 1#16 }
  rw [silent_syn] at hsyn
  unfold tick at *
  generalize captureTick levels { silent s with tcnt := s.tcnt + 1#16 } = u at *
  rw [← hsyn] at hne ⊢
  obtain ⟨-, hu⟩ | ⟨-, hu⟩ | ⟨-, -, -, hu⟩ := synthTick_cases d u <;> rw [hu] at hne ⊢
  · exact absurd rfl hne
  · obtain ⟨hact, hpend, hirq⟩ := frameStart_latch d u
    have hcommit : u.syn.pend = true := by_contra fun hp => hne (hact.trans (if_neg hp))
    exact ⟨hcommit, hpend, by rw [hirq, hcommit]; rfl⟩
  · exact absurd rfl hne

/-- Settles O56: no transaction but SOFT_RESET writes ACT, and a tick writes it by a latch alone. -/
theorem targetsAreWrittenByALatchAlone : Obligations.TargetsAreWrittenByALatchAlone := by
  intro m s t h hm hne
  obtain ⟨hreset, -⟩ | ⟨levels, d, rfl, rfl⟩ | ⟨w, e, -, -, rfl⟩ | ⟨w, i, -, -, heff⟩ := perform_cases h
  case inl => simp [hm] at hreset
  case inr.inl => exact ⟨⟨levels, d, rfl⟩, tick_act_ne hne⟩
  case inr.inr.inl => simp at hne
  case inr.inr.inr => exact absurd heff.act hne

end Sys2Proof.Machine
end

section
/-! The invariant of the block under resets and transactions: the range of each register a move writes (spec 10_state.md
R37, R42, R46 to R48, R53; 42_pid.md R150, R166). -/

namespace Sys2Proof.Machine

/-! ### The controller step -/

/-- 10_state.md R42: the limit of I and D. -/
theorem pidLimit_mem (p : Pid) : 0 ≤ pidLimit p ∧ pidLimit p ≤ 4095 := by
  have hcoll := BitVec.toInt_lt (x := p.coll)
  unfold pidLimit asr
  omega

/-- 42_pid.md R166: a step leaves INT within the limit, or holds it. -/
theorem pidStep_integ_mem (p : Pid) (h : -4095 ≤ p.integ.toInt ∧ p.integ.toInt ≤ 4095) :
    -4095 ≤ (pidStep p).integ.toInt ∧ (pidStep p).integ.toInt ≤ 4095 := by
  simp only [pidStep]
  split
  · obtain ⟨hlim0, hlim⟩ := pidLimit_mem p
    obtain ⟨hlo, hhi⟩ := clamp_mem (pidAccum p) (-pidLimit p) (pidLimit p) (by omega)
    have hval := wrap16_toInt (pidIntegral p) (by unfold pidIntegral; omega) (by unfold pidIntegral; omega)
    rw [hval]
    unfold pidIntegral
    omega
  · exact h

/-- 42_pid.md R150: LASTERR is a clamped error. -/
theorem pidStep_lastErr_mem (p : Pid) :
    -32767 ≤ (pidStep p).lastErr.toInt ∧ (pidStep p).lastErr.toInt ≤ 32767 := by
  have helim := p.elim.isLt
  obtain ⟨hlo, hhi⟩ := clamp_mem (pidErrorRaw p) (-p.elim.toNat) p.elim.toNat (by omega)
  have hval : (pidStep p).lastErr.toInt = pidError p :=
    wrap16_toInt (pidError p) (by unfold pidError; omega) (by unfold pidError; omega)
  rw [hval]
  unfold pidError
  omega

/-! ### Resets and transactions -/

/-- 70_reset_and_hazards.md R250: ResetState() ends in the invariant from any state. -/
theorem resetState_inv (s : State) : (resetState s).Inv := by
  refine ⟨?registers, ?edges, ⟨fun _ => ⟨rfl, rfl, rfl⟩, nofun, ?disabled⟩, nofun, ?transitions, ?pulses⟩
  case registers => simp [State.RegistersLegal, resetSyn, resetPid]
  case edges =>
    intro n hn
    simp [resetCap] at hn
  case disabled =>
    intro o _
    simp [resetSyn]
  case transitions =>
    intro o
    simpa [resetSyn] using Nat.le_add_right_of_le (by decide)
  case pulses =>
    intro o hactive
    simp [resetSyn] at hactive

theorem illegalTransaction_inv (w : BusWord) {s : State} (h : s.Inv) : (illegalTransaction w s).Inv := by
  unfold illegalTransaction
  split <;> exact h

theorem getLsbD_and_of_right {w b : Nat} {x y : BitVec w} (h : y.getLsbD b = false) : (x &&& y).getLsbD b = false := by
  rw [BitVec.getLsbD_and, h, Bool.and_false]

theorem TransactionEffect.inv {s t : State} {i : Instr} (h : TransactionEffect s i t) (hs : s.Inv) : t.Inv := by
  obtain ⟨hreg, hedges, hlow, hruns, htrans, hpulses⟩ := hs
  cases h with
  | read | interrupts | clearError => exact ⟨hreg, hedges, hlow, hruns, htrans, hpulses⟩
  | capture _ en riseSeen valid center seen =>
    refine ⟨hreg, fun n hn => ?_, hlow, hruns, htrans, hpulses⟩
    obtain ⟨hseen, hkept⟩ := seen n.val hn
    exact hkept (hedges n hseen)
  | pidConfig _ p integ lastErr =>
    obtain ⟨hlowV, hdiv, hdivph, hact, hpid⟩ := hreg
    rw [← integ, ← lastErr] at hpid
    exact ⟨⟨hlowV, hdiv, hdivph, hact, hpid⟩, hedges, hlow, hruns, htrans, hpulses⟩
  | pidStep =>
    obtain ⟨hlowV, hdiv, hdivph, hact, hint0, hint1, -, -⟩ := hreg
    obtain ⟨hint0, hint1⟩ := pidStep_integ_mem s.pid ⟨hint0, hint1⟩
    obtain ⟨herr0, herr1⟩ := pidStep_lastErr_mem s.pid
    exact ⟨⟨hlowV, hdiv, hdivph, hact, hint0, hint1, herr0, herr1⟩, hedges, hlow, hruns, htrans, hpulses⟩
  | pidClear =>
    obtain ⟨hlowV, hdiv, hdivph, hact, -⟩ := hreg
    have hzero : -4095 ≤ (0#16).toInt ∧ (0#16).toInt ≤ 4095 ∧ -32767 ≤ (0#16).toInt ∧ (0#16).toInt ≤ 32767 := by decide
    exact ⟨⟨hlowV, hdiv, hdivph, hact, hzero⟩, hedges, hlow, hruns, htrans, hpulses⟩
  | synConfig _ wide slow low div route cmd pend lowLegal divLegal =>
    obtain ⟨hlowV, hdiv, hrest⟩ := hreg
    have hlow' : low.toNat ≤ 49535 := lowLegal.elim (fun e => e ▸ hlowV) id
    have hdiv' : div ≠ 0#8 := divLegal.elim (fun e => e ▸ hdiv) id
    exact ⟨⟨hlow', hdiv', hrest⟩, hedges, hlow, hruns, htrans, hpulses⟩
  | synEnable _ disabled =>
    obtain ⟨hdisabled, hrequested, houtputs⟩ := hlow
    obtain ⟨hlevel, hactive, -⟩ := hdisabled disabled
    exact ⟨hreg, hedges, ⟨nofun, fun _ => ⟨hlevel, hactive⟩, houtputs⟩, nofun, htrans, hpulses⟩
  | synDisable =>
    have hzero (o : Slot) : (0#6).getLsbD o.val = false := BitVec.getLsbD_zero
    exact ⟨hreg, hedges, ⟨fun _ => ⟨rfl, rfl, rfl⟩, nofun, fun o _ => ⟨hzero o, hzero o⟩⟩, nofun, htrans,
      fun o hactive => absurd hactive (Bool.eq_false_iff.mp (hzero o))⟩
  | outputEnable _ outen =>
    obtain ⟨hdisabled, hrequested, houtputs⟩ := hlow
    refine ⟨hreg, hedges, ⟨fun hen => ?_, fun hreq => ?_, fun o hoff => ?_⟩, hruns, htrans, fun o hactive => ?_⟩
    · obtain ⟨hlevel, hactive, hreq⟩ := hdisabled hen
      exact ⟨by simp [hlevel], by simp [hactive], hreq⟩
    · obtain ⟨hlevel, hactive⟩ := hrequested hreq
      exact ⟨by simp [hlevel], by simp [hactive]⟩
    · exact ⟨getLsbD_and_of_right hoff, getLsbD_and_of_right hoff⟩
    · rw [BitVec.getLsbD_and, Bool.and_eq_true] at hactive
      obtain ⟨hactive, hon⟩ := hactive
      obtain ⟨hoff0, hoff1, hcompare, hlevel⟩ := hpulses o hactive
      refine ⟨hoff0, hoff1, hcompare, fun hel => ?_⟩
      rw [BitVec.getLsbD_and, hon, Bool.and_true]
      exact hlevel hel

end Sys2Proof.Machine
end

section
/-! The invariant of the block under a tick (spec 43_synth.md R182 to R187, 70_reset_and_hazards.md R265). -/

namespace Sys2Proof.Machine

/-! ### Between the counting of TCNT and the outputs -/

/-- `State.PulsesTimed` as it stands in the middle of a tick: TCNT has counted, and the levels are those of the tick
before (40_global.md R100). -/
def State.PulsesDue (s : State) : Prop :=
  ∀ o : Slot, s.syn.active.getLsbD o.val = true →
    s.syn.act[o].toNat ≤ s.syn.offAt[o] ∧ s.syn.offAt[o] ≤ s.syn.act[o].toNat + Config.jitterTicks ∧
      (o.val ≤ 3 → s.syn.onAt[o] = 0 ∧ s.syn.offAt[o] = s.syn.act[o].toNat) ∧
      (s.syn.onAt[o] < elapsed s → s.syn.level.getLsbD o.val = decide (elapsed s ≤ s.syn.offAt[o]))

/-- 43_synth.md R187: an active output belongs to a running frame. -/
theorem State.DisabledLow.running {s : State} (h : s.DisabledLow) {o : Slot}
    (hactive : s.syn.active.getLsbD o.val = true) : s.syn.en = true ∧ s.syn.startReq = false := by
  obtain ⟨hdisabled, hrequested, -⟩ := h
  constructor
  · by_contra hen
    obtain ⟨-, hzero, -⟩ := hdisabled (by simpa using hen)
    simp [hzero] at hactive
  · by_contra hreq
    obtain ⟨-, hzero⟩ := hrequested (by simpa using hreq)
    simp [hzero] at hactive

/-- 43_synth.md R181: a tick adds one to the elapsed ticks of a frame that has not outlived the counter. -/
theorem elapsed_succ {s c : State} (htcnt : c.tcnt = s.tcnt + 1#16) (hsyn : c.syn = s.syn)
    (hruns : elapsed s < 65535) : elapsed c = elapsed s + 1 := by
  unfold elapsed at *
  rw [htcnt, hsyn]
  bv_omega

theorem pulsesDue_of_pulsesTimed {s c : State} (htcnt : c.tcnt = s.tcnt + 1#16) (hsyn : c.syn = s.syn) (hlow : s.DisabledLow)
    (hruns : s.FrameRuns) (hpulses : s.PulsesTimed) : c.PulsesDue := by
  intro o hactive
  rw [hsyn] at hactive
  obtain ⟨hen, hreq⟩ := hlow.running hactive
  obtain ⟨hoff0, hoff1, hcompare, hlevel⟩ := hpulses o hactive
  rw [elapsed_succ htcnt hsyn (hruns hen hreq), hsyn]
  refine ⟨hoff0, hoff1, hcompare, fun hon => ?_⟩
  rw [hlevel (Nat.le_of_lt_succ hon)]
  rfl

theorem captureTick_edgesTracked (levels : BitVec 4) {s : State} (h : s.EdgesTracked) :
    (captureTick levels s).EdgesTracked := by
  intro n hn
  obtain ⟨-, -, -, -, -, -, -, -, hen, -⟩ := captureTick_frame levels s
  obtain ⟨-, hseen, -⟩ := captureTick_chan levels s n
  rw [hseen, Bool.or_eq_true] at hn
  rw [hen]
  obtain hrise | hseen := hn
  · simp only [recordsRise, Bool.and_eq_true] at hrise
    exact hrise.1
  · exact h n hseen

/-! ### The start of a frame -/

theorem nextPhase_le (first : Bool) (y : Syn) : (nextPhase first y).toNat ≤ 254 := by
  unfold nextPhase
  split
  · decide
  · split
    · decide
    · bv_omega

/-- 43_synth.md R180: a latched target is legal. -/
theorem latchedTargets_mem (y : Syn) (o : Slot) :
    8000 ≤ (latchedTargets y)[o].toNat ∧ (latchedTargets y)[o].toNat ≤ 24000 := by
  rw [latchedTargets_getElem]
  have hval := wrap16_pulseTarget y.cmd[y.route[o]] (y.wide.getLsbD o.val)
  obtain ⟨hlo, hhi⟩ := pulseTarget_mem y.cmd[y.route[o]] (y.wide.getLsbD o.val)
  split at hhi <;> omega

theorem frameStart_registersLegal (d : Draws) {s : State} (h : s.RegistersLegal) : (frameStart d s).RegistersLegal := by
  obtain ⟨hlow, hdiv, -, hact, hpid⟩ := h
  obtain ⟨hpidEq, -, -, -, hlowEq, hdivEq⟩ := frameStart_frame d s
  obtain ⟨-, -, -, hphase⟩ := frameStart_registers d s
  obtain ⟨hactEq, -, -⟩ := frameStart_latch d s
  refine ⟨hlowEq ▸ hlow, hdivEq ▸ hdiv, hphase ▸ nextPhase_le _ _, fun o => ?_, hpidEq ▸ hpid⟩
  rw [hactEq]
  split
  · exact latchedTargets_mem s.syn o
  · exact hact o

/-- A disabled output gets no pulse (43_synth.md R183). -/
theorem pulsesNow_eq_false {y : Syn} {o : Slot} (h : y.outen.getLsbD o.val = false) : pulsesNow y o = false := by
  simp only [pulsesNow, h, Bool.false_and]

theorem frameStart_disabledLow (d : Draws) {s : State} (hen : s.syn.en = true) (h : s.DisabledLow) :
    (frameStart d s).DisabledLow := by
  obtain ⟨-, -, houtputs⟩ := h
  obtain ⟨-, -, henEq, houtenEq, -⟩ := frameStart_frame d s
  obtain ⟨hreqEq, -⟩ := frameStart_registers d s
  refine ⟨fun hoff => ?_, fun hreq => ?_, fun o ho => ?_⟩
  · rw [henEq, hen] at hoff
    exact nomatch hoff
  · rw [hreqEq] at hreq
    exact nomatch hreq
  · obtain ⟨hactive, -, -, hlevel⟩ := frameStart_output d s o
    rw [pulsesNow_eq_false ho] at hactive hlevel
    rw [houtenEq] at ho
    obtain ⟨hlow, -⟩ := houtputs o ho
    exact ⟨by rw [hlevel, hlow]; rfl, hactive⟩

theorem elapsed_frameStart (d : Draws) (s : State) : elapsed (frameStart d s) = 0 := by
  obtain ⟨-, hfstart, htcnt, -⟩ := frameStart_registers d s
  simp [elapsed, hfstart, htcnt]

/-- 00_scope.md R8: the draws of a tick are within the jitter bound. -/
theorem drawOn_le (d : Draws) (o : Slot) : drawOn (boundedDraws d) o ≤ Config.jitterTicks := by
  unfold drawOn boundedDraws
  split <;> exact Nat.min_le_right _ _

theorem drawOff_le (d : Draws) (o : Slot) : drawOff (boundedDraws d) o ≤ Config.jitterTicks := by
  unfold drawOff boundedDraws
  split <;> exact Nat.min_le_right _ _

theorem frameStart_transitionsLegal (d : Draws) {s : State} (hreg : s.RegistersLegal) (h : s.TransitionsLegal) :
    (frameStart (boundedDraws d) s).TransitionsLegal := by
  intro o
  obtain ⟨-, -, -, hact, -⟩ := frameStart_registersLegal (boundedDraws d) hreg
  obtain ⟨-, honAt, hoffAt, -⟩ := frameStart_output (boundedDraws d) s o
  have hon := drawOn_le d o
  have hoff := drawOff_le d o
  have hacto := hact o
  have hs := h o
  rw [honAt, hoffAt]
  split
  · split <;> omega
  · exact hs

theorem frameStart_pulsesTimed (d : Draws) {s : State} (hreg : s.RegistersLegal) :
    (frameStart (boundedDraws d) s).PulsesTimed := by
  intro o hactive
  obtain ⟨-, -, -, hact, -⟩ := frameStart_registersLegal (boundedDraws d) hreg
  obtain ⟨hpulses, honAt, hoffAt, hlevel⟩ := frameStart_output (boundedDraws d) s o
  rw [hactive] at hpulses
  rw [← hpulses] at honAt hoffAt hlevel
  have hoff := drawOff_le d o
  have hacto := hact o
  rw [elapsed_frameStart, honAt, hoffAt, hlevel]
  simp only [if_true, Bool.true_and]
  by_cases hcompare : o.val ≤ 3
  · simp only [if_pos hcompare]
    refine ⟨le_rfl, Nat.le_add_right _ _, fun _ => ⟨trivial, trivial⟩, fun _ => ?_⟩
    have hpos : 0 < (frameStart (boundedDraws d) s).syn.act[o].toNat := by omega
    simp only [hcompare, hpos, true_or, decide_true, Bool.or_true]
  · simp only [if_neg hcompare]
    refine ⟨Nat.le_add_right _ _, Nat.add_le_add_left hoff _, fun h => absurd h hcompare, fun hon => ?_⟩
    have hpos : 0 < (frameStart (boundedDraws d) s).syn.act[o].toNat + drawOff (boundedDraws d) o := by omega
    simp only [Nat.le_zero.mp hon, hpos, or_true, decide_true, Bool.or_true]

/-! ### Inside a frame -/

/-- The levels of a tick inside a frame, on an active output (43_synth.md R182, R184, R185): J is below the least
target, so no turn-on tick is a turn-off tick. -/
theorem runOutputs_pulse {s : State} {o : Slot} (hdue : s.PulsesDue) (htrans : s.TransitionsLegal)
    (hactive : s.syn.active.getLsbD o.val = true) (hon : s.syn.onAt[o] ≤ elapsed s) :
    (runOutputs (elapsed s) s.syn).getLsbD o.val = decide (elapsed s < s.syn.offAt[o]) := by
  obtain ⟨-, -, -, hlevel⟩ := hdue o hactive
  obtain ⟨honLe, hoffGe, -⟩ := htrans o
  have hjitter : Config.jitterTicks < 8000 := Config.jitter.isLt
  rw [runOutputs_getLsbD, if_pos hactive]
  split
  case isTrue hoff => simp [hoff]
  case isFalse hoff =>
    split
    case isTrue hturnOn =>
      exact (decide_eq_true (by omega)).symm
    case isFalse hturnOn =>
      rw [hlevel (by omega), decide_eq_decide]
      omega

theorem runOutputs_of_inactive {el : Nat} {y : Syn} {o : Slot} (h : y.active.getLsbD o.val = false) :
    (runOutputs el y).getLsbD o.val = y.level.getLsbD o.val := by
  rw [runOutputs_getLsbD, if_neg (by rw [h]; exact Bool.false_ne_true)]

/-! ### The whole tick -/

/-- SynthTick ends in the invariant, from what the rest of the tick leaves of it. -/
theorem synthTick_inv (d : Draws) {s : State} (hreg : s.RegistersLegal) (hedges : s.EdgesTracked) (hlow : s.DisabledLow)
    (htrans : s.TransitionsLegal) (hdue : s.PulsesDue) : (synthTick (boundedDraws d) s).Inv := by
  obtain ⟨hen, h⟩ | ⟨hen, h⟩ | ⟨hen, hreq, hinside, h⟩ := synthTick_cases (boundedDraws d) s <;> rw [h]
  · refine ⟨hreg, hedges, hlow, fun hon => ?_, htrans, fun o hactive => ?_⟩
    · simp [hen] at hon
    · obtain ⟨hon, -⟩ := hlow.running hactive
      simp [hen] at hon
  · obtain ⟨-, hcap, -⟩ := frameStart_frame (boundedDraws d) s
    refine ⟨frameStart_registersLegal _ hreg, ?_, frameStart_disabledLow _ hen hlow, fun _ _ => ?_,
      frameStart_transitionsLegal d hreg htrans, frameStart_pulsesTimed d hreg⟩
    · simpa only [State.EdgesTracked, hcap] using hedges
    · rw [elapsed_frameStart]
      decide
  · obtain ⟨-, -, houtputs⟩ := hlow
    refine ⟨hreg, hedges, ⟨fun hoff => ?_, fun hon => ?_, fun o ho => ?_⟩, fun _ _ => ?_, htrans, fun o hactive => ?_⟩
    · simp [hen] at hoff
    · simp [hreq] at hon
    · obtain ⟨hlevel, hactive⟩ := houtputs o ho
      exact ⟨(runOutputs_of_inactive hactive).trans hlevel, hactive⟩
    · obtain ⟨hlowLe, -⟩ := hreg
      have hlt : elapsed s < 65535 := by unfold frameLen at hinside; omega
      exact hlt
    · obtain ⟨hoff0, hoff1, hcompare, -⟩ := hdue o hactive
      exact ⟨hoff0, hoff1, hcompare, runOutputs_pulse hdue htrans hactive⟩

theorem tick_inv (levels : BitVec 4) (d : Draws) {s : State} (h : s.Inv) : (tick levels (boundedDraws d) s).Inv := by
  obtain ⟨hreg, hedges, hlow, hruns, htrans, hpulses⟩ := h
  have hedges' := captureTick_edgesTracked levels (s := { silent s with tcnt := s.tcnt + 1#16 }) hedges
  obtain ⟨htcnt, -, -, hpid, hsyn, -⟩ := captureTick_frame levels { silent s with tcnt := s.tcnt + 1#16 }
  rw [silent_pid] at hpid
  rw [silent_syn] at hsyn
  unfold tick
  generalize captureTick levels { silent s with tcnt := s.tcnt + 1#16 } = c at *
  refine synthTick_inv d ?_ hedges' ?_ ?_ (pulsesDue_of_pulsesTimed htcnt hsyn hlow hruns hpulses)
  · simpa only [State.RegistersLegal, hsyn, hpid] using hreg
  · simpa only [State.DisabledLow, hsyn] using hlow
  · simpa only [State.TransitionsLegal, hsyn] using htrans

/-! ### Every move -/

theorem perform_inv {m : Stimulus} {s t : State} (hs : s.Inv) (h : perform m s = .next t) : t.Inv := by
  obtain ⟨-, rfl⟩ | ⟨levels, d, -, rfl⟩ | ⟨w, e, -, -, rfl⟩ | ⟨w, i, -, -, heff⟩ := perform_cases h
  · exact resetState_inv s
  · exact tick_inv levels d hs
  · exact illegalTransaction_inv w hs
  · exact heff.inv hs

/-- Settles O49: the invariant does not speak of the model's own two fields, and every move of an agent keeps it. -/
theorem invariantIsKeptByEveryStep : Obligations.InvariantIsKeptByEveryStep := by
  intro s t hs h
  obtain ⟨m, rest, -, hstep⟩ | ⟨-, hstep⟩ := step_cases s
  · rw [hstep] at h
    exact perform_inv (s := { s with schedule := rest }) hs h
  · rw [hstep] at h
    exact perform_inv (s := { s with drawIx := s.drawIx + 1 }) hs h

end Sys2Proof.Machine
end

section
/-! The register map after reset (spec 10_state.md R22, R55; 70_reset_and_hazards.md R250, R252). -/

namespace Sys2Proof.Machine

theorem irq_eq_false_of_irqPend_eq_zero {s : State} (h : s.irqPend = 0#11) : s.irq = false := by
  simp [State.irq, h]

/-- A word that decodes to a read completes with the register's value and changes nothing else. -/
theorem perform_read {w : BusWord} {i : Instr} {s : State} {v x : Reg} (hd : decode w = .ok i)
    (hread : exec i s = .next (reply x s)) (hv : x = v) :
    perform (.host w) s = .next { s with busRdata := some v } := by
  rw [perform_host_ok w i s hd, hread, hv]
  rfl

/-- Settles O21: with no pending bit IRQ is low, and each address of the map decodes to the read of its register, which
holds the reset value; WIDTH and START are not read. -/
theorem resetValuesOfTheRegisterMap : Obligations.ResetValuesOfTheRegisterMap := by
  intro width start
  refine ⟨irq_eq_false_of_irqPend_eq_zero rfl, rfl, fun x hx => ?_⟩
  fin_cases hx <;> refine perform_read rfl rfl ?_ <;>
    simp [State.powerOn, statusWord, pidCtrlWord, slotNibble, zext16, fieldAddr]

end Sys2Proof.Machine
end

section
/-! Reads, and transactions that repeat (spec 20_memory.md R64, R65; 30_encoding.md R82). -/

namespace Sys2Proof.Machine

open Sys2Proof.Laws.EncodeHeader (isWrite)

/-! ### Reads -/

/-- 30_encoding.md R82: a read answers a value of the state and changes nothing else; no value depends on the last
answer. -/
theorem exec_read (i : Instr) (hwf : i.wellFormed = true) (hread : isWrite i = false) :
    ∃ value : State → Reg, (∀ s, exec i s = .next (reply (value s) s)) ∧ ∀ s v, value (reply v s) = value s := by
  cases i with
  | rdSynCmd k =>
    obtain ⟨o, ho⟩ := indexSlot_of_legal hwf
    exact ⟨fun s => s.syn.cmd[o], fun s => by simp only [exec, execRdSynCmd, ho], fun _ _ => rfl⟩
  | rdSynAct k =>
    obtain ⟨o, ho⟩ := indexSlot_of_legal hwf
    exact ⟨fun s => s.syn.act[o], fun s => by simp only [exec, execRdSynAct, ho], fun _ _ => rfl⟩
  | wrIrqPend | wrIrqEn | cmdClrErr | cmdCapClr | cmdPidStep | cmdPidClr | cmdSynCommit | cmdSynCancel | cmdSoftReset
  | wrCapCtrl | wrCapCenter | wrPidCtrl | wrPidSp | wrPidPv | wrPidKp | wrPidElim | wrPidEps | wrPidColl | wrSynCtrl
  | wrSynOuten | wrSynWide | wrSynSlow | wrSynLow | wrSynDiv | wrSynRoute0 | wrSynRoute1 | wrSynCmd => nomatch hread
  | _ => exact ⟨_, fun _ => rfl, fun _ _ => rfl⟩

/-- A word with W = 0 that decodes is a read. -/
theorem isWrite_of_decode {t : BusWord} {i : Instr} (hw : fieldW t = false) (h : decode t = .ok i) :
    isWrite i = false := by
  rw [decode_eq] at h
  split_ifs at h with _ hwrite
  · simp [hw] at hwrite
  · exact (decodeRead_admits _ _ h).2

/-- 60_exceptions.md R231 for a read. -/
theorem illegalTransaction_read {t : BusWord} (hw : fieldW t = false) (s : State) :
    illegalTransaction t s =
      { s with busRdata := some 0, busErr := true, irqPend := setBit s.irqPend 10 true } := by
  rw [illegalTransaction, hw]
  rfl

/-- Settles O16: a decoded word with W = 0 is a read, whose value is the same after its answer; an illegal one raises
IRQ_PEND.ERR alone. -/
theorem readsHaveNoSideEffect : Obligations.ReadsHaveNoSideEffect := by
  intro s t hw
  cases hd : decode t with
  | ok i =>
    obtain ⟨value, hexec, hsame⟩ := exec_read i (wellFormed_of_decode hd) (isWrite_of_decode hw hd)
    refine ⟨value s, fun _ => ?_, fun ⟨_, he⟩ => nomatch he⟩
    rw [perform_host_ok t i s hd, perform_host_ok t i _ hd]
    have hagain := hexec (reply (value s) s)
    rw [hsame] at hagain
    exact ⟨hexec s, hagain⟩
  | error e =>
    refine ⟨0, (fun ⟨_, hi⟩ => nomatch hi), fun _ => ⟨setBit s.irqPend 10 true, ?_, fun b => ?_⟩⟩
    · rw [perform_host_error t e s hd, illegalTransaction_read hw]
    · exact (getLsbD_raiseIrq .err s b).trans (Bool.or_comm _ _)

/-! ### Repeated transactions -/

/-- Settles O59: each of the five commands assigns constants, and IRQ_PEND bits cleared once stay cleared. -/
theorem repeatableTransactionsAreIdempotent : Obligations.RepeatableTransactionsAreIdempotent := by
  rintro i s t (rfl | rfl | rfl | rfl | rfl | ⟨v, rfl⟩) h <;> cases h
  case inr.inr.inr.inr.inr =>
    simp only [exec, execWrIrqPend, BitVec.and_assoc, BitVec.and_self]
    rfl
  all_goals rfl

end Sys2Proof.Machine
end

section
/-! Equal fences mean no publish (spec 20_memory.md R70, 41_capture.md R122, R124). -/

namespace Sys2Proof.Machine

theorem publishingChannels_eq (levels : BitVec 4) (s : State) :
    publishingChannels levels s = allChans.filter (publishes levels · s) := by
  refine List.filter_congr fun n _ => ?_
  simp only [publishes, fallsOn]
  ac_rfl

/-- 41_capture.md R124: a tick advances FENCE by the number of channels that publish. -/
theorem tick_fence (levels : BitVec 4) (d : Draws) (s : State) :
    (tick levels d s).cap.fence = s.cap.fence + BitVec.ofNat 16 (publishingChannels levels s).length := by
  obtain ⟨-, -, -, -, -, -, -, hcap⟩ := tick_frame levels d s
  rw [hcap, captureTick_fence, publishingChannels_eq]
  rfl

/-- 41_capture.md R122: a tick at which no channel publishes writes no width. -/
theorem tick_width_of_no_publish (levels : BitVec 4) (d : Draws) {s : State}
    (h : (publishingChannels levels s).length = 0) : (tick levels d s).cap.width = s.cap.width := by
  refine Vector.ext fun n hn => ?_
  obtain ⟨hwidth, -⟩ := tick_captured levels d s ⟨n, hn⟩
  refine hwidth (Bool.eq_false_iff.mpr fun hpub => ?_)
  rw [← mem_publishingChannels, List.length_eq_zero_iff.mp h] at hpub
  exact List.not_mem_nil hpub

theorem TransactionEffect.fence {s t : State} {i : Instr} (h : TransactionEffect s i t) :
    t.cap.fence = s.cap.fence := by
  cases h <;> rfl

/-- A run counts the publishes of its first move and those of the rest. -/
theorem publishCount_cons {m : Stimulus} {s u : State} (h : perform m s = .next u) (rest : List Stimulus) :
    publishCount (m :: rest) s = publishCount [m] s + publishCount rest u := by
  simp only [publishCount, h, Nat.add_zero]

theorem publishCount_host {w : BusWord} {s u : State} (h : perform (.host w) s = .next u) :
    publishCount [.host w] s = 0 := by
  simp only [publishCount, h, Nat.add_zero]

/-- The two registers the guarantee speaks of, over one move that is no reset. -/
theorem perform_fence_width {m : Stimulus} {s u : State} (h : perform m s = .next u) (hm : movesReset m = false) :
    u.cap.fence = s.cap.fence + BitVec.ofNat 16 (publishCount [m] s) ∧
      (publishCount [m] s = 0 → u.cap.width = s.cap.width) := by
  obtain ⟨hreset, -⟩ | ⟨levels, d, rfl, rfl⟩ | ⟨w, e, rfl, -, rfl⟩ | ⟨w, i, rfl, -, heff⟩ := perform_cases h
  case inl => simp [hm] at hreset
  case inr.inl => exact ⟨tick_fence levels _ s, tick_width_of_no_publish levels _⟩
  case inr.inr.inl => simp [publishCount_host h]
  case inr.inr.inr =>
    obtain ⟨hwidth, -⟩ := heff.captured
    simp [publishCount_host h, heff.fence, hwidth]

theorem runMoves_cons {m : Stimulus} {rest : List Stimulus} {s t : State} (h : runMoves (m :: rest) s = some t) :
    ∃ u, perform m s = .next u ∧ runMoves rest u = some t := by
  rw [runMoves] at h
  split at h
  case h_1 u hu => exact ⟨u, hu, h⟩
  all_goals exact nomatch h

/-- 20_memory.md R70 with no bound on the run: FENCE counts the publishes modulo 65536. -/
theorem runMoves_fence_width {l : List Stimulus} {s t : State} (h : runMoves l s = some t)
    (hl : ∀ m ∈ l, movesReset m = false) :
    t.cap.fence = s.cap.fence + BitVec.ofNat 16 (publishCount l s) ∧
      (publishCount l s = 0 → t.cap.width = s.cap.width) := by
  induction l generalizing s with
  | nil =>
    cases h
    simp [publishCount]
  | cons m rest ih =>
    obtain ⟨u, hu, hrest⟩ := runMoves_cons h
    obtain ⟨hm, hl⟩ := List.forall_mem_cons.mp hl
    obtain ⟨hfence, hwidth⟩ := perform_fence_width hu hm
    obtain ⟨hfence', hwidth'⟩ := ih hrest hl
    rw [publishCount_cons hu]
    refine ⟨by rw [hfence', hfence, BitVec.ofNat_add, BitVec.add_assoc], fun hzero => ?_⟩
    obtain ⟨hfirst, hlater⟩ := Nat.add_eq_zero_iff.mp hzero
    exact (hwidth' hlater).trans (hwidth hfirst)

/-- Settles O29: FENCE counts the publishes modulo 65536, and fewer than that many leave it alone only if there are
none. -/
theorem equalFencesMeanNoPublish : Obligations.EqualFencesMeanNoPublish := by
  intro l s t hrun hl hbound hsame
  obtain ⟨hfence, hwidth⟩ := runMoves_fence_width hrun hl
  have hnone : publishCount l s = 0 := by
    rw [hsame] at hfence
    bv_omega
  exact ⟨hnone, hwidth hnone⟩

end Sys2Proof.Machine
end

section
/-! Writing back the value read (spec 20_memory.md R65). -/

namespace Sys2Proof.Machine

/-! ### The operand forms take back what a read shows -/

@[simp] theorem lower15_zext16 (x : BitVec 15) : lower15 (zext16 x) = x := lowBits_zext16 x (by decide)

/-- 10_state.md R47: LOW holds a value `warlLow` does not change. -/
theorem warlLow_of_le {v : Reg} (h : v.toNat ≤ 49535) : warlLow v = v :=
  BitVec.eq_of_toNat_eq ((warlLow_toNat v).trans (Nat.min_eq_left h))

/-- 10_state.md R48: DIV holds a value `warlDiv` does not change. -/
theorem warlDiv_zext16 {x : BitVec 8} (h : x ≠ 0#8) : warlDiv (zext16 x) = x := by
  have hlow : (zext16 x).extractLsb' 0 8 = x := lowBits_zext16 x (by decide)
  rw [warlDiv_of_low_ne_zero _ (by rwa [hlow]), hlow]

@[simp] theorem legalNibble_slotNibble (o : Slot) : legalNibble (slotNibble o) = true := by
  revert o; decide

theorem low_nibbles_append {w : Nat} (c : BitVec w) (b a : BitVec 4) :
    (c ++ b ++ a).extractLsb' 0 4 = a ∧ (c ++ b ++ a).extractLsb' 4 4 = b := by
  simp [BitVec.extractLsb'_append_eq_of_le, BitVec.extractLsb'_append_eq_of_add_le]

theorem high_nibbles_append {w : Nat} (d : BitVec w) (c b a : BitVec 4) :
    (d ++ c ++ b ++ a).extractLsb' 8 4 = c ∧ (d ++ c ++ b ++ a).extractLsb' 12 w = d := by
  simp [BitVec.extractLsb'_append_eq_of_le, BitVec.extractLsb'_append_eq_of_add_le]

/-- 42_pid.md R152, R153: the fields of the PID_CTRL pattern. -/
theorem pidCtrlWord_fields (p : Pid) :
    (pidCtrlWord p).getLsbD 0 = p.iEn ∧ (pidCtrlWord p).getLsbD 1 = p.dEn ∧
      (pidCtrlWord p).extractLsb' 4 4 = p.iShift ∧ (pidCtrlWord p).extractLsb' 8 4 = p.dShift := by
  refine ⟨?_, ?_, ?_, ?_⟩ <;> unfold pidCtrlWord
  · rw [BitVec.getLsbD_append]
    simp
  · rw [BitVec.getLsbD_append, BitVec.getLsbD_append]
    simp
  · iterate 3 rw [BitVec.extractLsb'_append_eq_of_le (by decide)]
    exact BitVec.extractLsb'_append_eq_right
  · iterate 4 rw [BitVec.extractLsb'_append_eq_of_le (by decide)]
    exact BitVec.extractLsb'_append_eq_right

/-- 10_state.md R46: an output that is not enabled is low and inactive already. -/
theorem and_outen_of_disabledLow {s : State} (h : s.DisabledLow) :
    s.syn.level &&& s.syn.outen = s.syn.level ∧ s.syn.active &&& s.syn.outen = s.syn.active := by
  obtain ⟨-, -, houtputs⟩ := h
  have hmask (x : BitVec 6) (hx : ∀ o : Slot, s.syn.outen.getLsbD o.val = false → x.getLsbD o.val = false) :
      x &&& s.syn.outen = x := by
    refine BitVec.eq_of_getLsbD_eq fun i hi => ?_
    have hbit := hx ⟨i, hi⟩
    rw [BitVec.getLsbD_and]
    revert hbit
    cases s.syn.outen.getLsbD i <;> simp +contextual
  exact ⟨hmask _ fun o ho => (houtputs o ho).1, hmask _ fun o ho => (houtputs o ho).2⟩

/-! ### A register read and written back -/

/-- At this state the address decodes to a read, the value it answers decodes to a write there, and that write changes
nothing. -/
def WritesBack (a : Addr) (s : State) : Prop :=
  ∃ (rd wr : Instr) (x : Reg), decodeRead a = .ok rd ∧ exec rd s = .next (reply x s) ∧ decodeWrite a x = .ok wr ∧
    exec wr (reply x s) = .next (silent s)

theorem WritesBack.perform_write {a : Addr} {s t : State} {v : Reg} (h : WritesBack a s)
    (hread : perform (.host (busWord false a 0)) s = .next t) (hv : t.busRdata = some v) :
    perform (.host (busWord true a v)) t = .next { s with busRdata := none } := by
  obtain ⟨rd, wr, x, hrd, hx, hwr, hback⟩ := h
  rw [perform_host_ok _ rd s ((decode_busWord false a 0).trans hrd), hx] at hread
  cases hread
  cases hv
  rw [perform_host_ok _ wr _ ((decode_busWord true a v).trans hwr), hback]
  rfl

theorem writesBack_irqEn (s : State) : WritesBack 0x03 s :=
  ⟨.rdIrqEn, .wrIrqEn (zext16 s.irqEn), _, rfl, rfl, rfl, by
    simp only [exec, execWrIrqEn, lowBits_zext16 _ (show 11 ≤ 16 by decide)]
    rfl⟩

/-- 41_capture.md R127: no channel is disabled, so RISE_SEEN stays. -/
theorem writesBack_capCtrl (s : State) : WritesBack 0x10 s := by
  have hseen : s.cap.riseSeen &&& (~~~s.cap.en ||| s.cap.en) = s.cap.riseSeen := by
    rw [BitVec.not_or_self, BitVec.and_allOnes]
  refine ⟨.rdCapCtrl, .wrCapCtrl (zext16 s.cap.en), _, rfl, rfl, rfl, ?_⟩
  simp only [exec, execWrCapCtrl, reply_cap, lowBits_zext16 _ (show 4 ≤ 16 by decide), hseen]
  rfl

/-- 41_capture.md R132, R133: a row of the four. -/
theorem writesBack_capCenter {a : Addr} {n : BitVec 2} (hrd : decodeRead a = .ok (.rdCapCenter n))
    (hwr : ∀ x, decodeWrite a x = .ok (.wrCapCenter n x)) (s : State) : WritesBack a s := by
  refine ⟨_, _, s.cap.center[indexChan n], hrd, rfl, hwr _, ?_⟩
  simp only [exec, execWrCapCenter, silent_cap, reply_cap, Fin.getElem_fin, Vector.set_getElem_self]
  rfl

theorem writesBack_pidCtrl (s : State) : WritesBack 0x30 s := by
  refine ⟨.rdPidCtrl, .wrPidCtrl (pidCtrlWord s.pid), _, rfl, rfl, rfl, ?_⟩
  obtain ⟨hiEn, hdEn, hiShift, hdShift⟩ := pidCtrlWord_fields s.pid
  simp only [exec, execWrPidCtrl, hiEn, hdEn, hiShift, hdShift]
  rfl

theorem writesBack_pidElim (s : State) : WritesBack 0x34 s :=
  ⟨.rdPidElim, .wrPidElim (zext16 s.pid.elim), _, rfl, rfl, rfl, by
    simp only [exec, execWrPidElim, lower15_zext16]
    rfl⟩

theorem writesBack_pidEps (s : State) : WritesBack 0x35 s :=
  ⟨.rdPidEps, .wrPidEps (zext16 s.pid.eps), _, rfl, rfl, rfl, by
    simp only [exec, execWrPidEps, lower15_zext16]
    rfl⟩

/-- 43_synth.md R189: EN goes neither up nor down. -/
theorem writesBack_synCtrl (s : State) : WritesBack 0x40 s := by
  refine ⟨.rdSynCtrl, .wrSynCtrl (zext16 (BitVec.ofBool s.syn.en)), _, rfl, rfl, rfl, ?_⟩
  have hen : (zext16 (BitVec.ofBool s.syn.en)).getLsbD 0 = s.syn.en := by
    cases s.syn.en <;> rfl
  simp only [exec, execWrSynCtrl, hen, reply_syn, Bool.not_and_self, Bool.and_not_self]
  rfl

theorem writesBack_synOuten {s : State} (h : s.DisabledLow) : WritesBack 0x41 s := by
  refine ⟨.rdSynOuten, .wrSynOuten (zext16 s.syn.outen), _, rfl, rfl, rfl, ?_⟩
  obtain ⟨hlevel, hactive⟩ := and_outen_of_disabledLow h
  simp only [exec, execWrSynOuten, reply_syn, lowBits_zext16 _ (show 6 ≤ 16 by decide), hlevel, hactive]
  rfl

theorem writesBack_synWide (s : State) : WritesBack 0x42 s :=
  ⟨.rdSynWide, .wrSynWide (zext16 s.syn.wide), _, rfl, rfl, rfl, by
    simp only [exec, execWrSynWide, lowBits_zext16 _ (show 6 ≤ 16 by decide)]
    rfl⟩

theorem writesBack_synSlow (s : State) : WritesBack 0x43 s :=
  ⟨.rdSynSlow, .wrSynSlow (zext16 s.syn.slow), _, rfl, rfl, rfl, by
    simp only [exec, execWrSynSlow, lowBits_zext16 _ (show 6 ≤ 16 by decide)]
    rfl⟩

theorem writesBack_synLow {s : State} (h : s.syn.low.toNat ≤ 49535) : WritesBack 0x44 s :=
  ⟨.rdSynLow, .wrSynLow s.syn.low, _, rfl, rfl, rfl, by
    simp only [exec, execWrSynLow, warlLow_of_le h]
    rfl⟩

theorem writesBack_synDiv {s : State} (h : s.syn.div ≠ 0#8) : WritesBack 0x45 s :=
  ⟨.rdSynDiv, .wrSynDiv (zext16 s.syn.div), _, rfl, rfl, rfl, by
    simp only [exec, execWrSynDiv, warlDiv_zext16 h]
    rfl⟩

theorem writesBack_synRoute0 (s : State) : WritesBack 0x46 s := by
  obtain ⟨h0, h1⟩ := low_nibbles_append (slotNibble s.syn.route[3] ++ slotNibble s.syn.route[2])
    (slotNibble s.syn.route[1]) (slotNibble s.syn.route[0])
  obtain ⟨h2, h3⟩ := high_nibbles_append (slotNibble s.syn.route[3]) (slotNibble s.syn.route[2])
    (slotNibble s.syn.route[1]) (slotNibble s.syn.route[0])
  have hlegal : legalRoute0 (slotNibble s.syn.route[3] ++ slotNibble s.syn.route[2] ++ slotNibble s.syn.route[1] ++
      slotNibble s.syn.route[0]) = true := by
    simp only [legalRoute0, h0, h1, h2, h3, legalNibble_slotNibble, Bool.and_self]
  refine ⟨.rdSynRoute0, .wrSynRoute0 _, _, rfl, rfl, (if_pos hlegal :), ?_⟩
  simp only [exec, execWrSynRoute0, h0, h1, h2, h3, nibbleSlot_slotNibble, silent_syn, reply_syn,
    Vector.set_getElem_self]
  rfl

theorem writesBack_synRoute1 (s : State) : WritesBack 0x47 s := by
  obtain ⟨h4, h5⟩ := low_nibbles_append 0#8 (slotNibble s.syn.route[5]) (slotNibble s.syn.route[4])
  have hlegal : legalRoute1 (0#8 ++ slotNibble s.syn.route[5] ++ slotNibble s.syn.route[4]) = true := by
    simp only [legalRoute1, h4, h5, legalNibble_slotNibble, Bool.and_self]
  refine ⟨.rdSynRoute1, .wrSynRoute1 _, _, rfl, rfl, (if_pos hlegal :), ?_⟩
  simp only [exec, execWrSynRoute1, h4, h5, nibbleSlot_slotNibble, silent_syn, reply_syn, Vector.set_getElem_self]
  rfl

/-- 43_synth.md R208, R209: a row of the six. -/
theorem writesBack_synCmd {a : Addr} {k : BitVec 3} {o : Slot} (hk : indexSlot k = some o)
    (hrd : decodeRead a = .ok (.rdSynCmd k)) (hwr : ∀ x, decodeWrite a x = .ok (.wrSynCmd k x)) (s : State) :
    WritesBack a s := by
  refine ⟨_, _, s.syn.cmd[o], hrd, by simp only [exec, execRdSynCmd, hk], hwr _, ?_⟩
  simp only [exec, execWrSynCmd, hk, silent_syn, reply_syn, Fin.getElem_fin, Vector.set_getElem_self]
  rfl

theorem writesBack_pid {a : Addr} (hlo : 0x30 ≤ a.toNat) (hhi : a.toNat ≤ 0x36) (s : State) : WritesBack a s := by
  obtain rfl | rfl | rfl | rfl | rfl | rfl | rfl : a = 0x30#8 ∨ a = 0x31#8 ∨ a = 0x32#8 ∨ a = 0x33#8 ∨ a = 0x34#8 ∨
      a = 0x35#8 ∨ a = 0x36#8 := by bv_omega
  · exact writesBack_pidCtrl s
  · exact ⟨.rdPidSp, .wrPidSp s.pid.sp, _, rfl, rfl, rfl, rfl⟩
  · exact ⟨.rdPidPv, .wrPidPv s.pid.pv, _, rfl, rfl, rfl, rfl⟩
  · exact ⟨.rdPidKp, .wrPidKp s.pid.kp, _, rfl, rfl, rfl, rfl⟩
  · exact writesBack_pidElim s
  · exact writesBack_pidEps s
  · exact ⟨.rdPidColl, .wrPidColl s.pid.coll, _, rfl, rfl, rfl, rfl⟩

theorem writesBack_syn {a : Addr} (hlo : 0x40 ≤ a.toNat) (hhi : a.toNat ≤ 0x47) {s : State} (hs : s.Inv) :
    WritesBack a s := by
  obtain ⟨⟨hlow, hdiv, -⟩, -, houtputs, -⟩ := hs
  obtain rfl | rfl | rfl | rfl | rfl | rfl | rfl | rfl : a = 0x40#8 ∨ a = 0x41#8 ∨ a = 0x42#8 ∨ a = 0x43#8 ∨
      a = 0x44#8 ∨ a = 0x45#8 ∨ a = 0x46#8 ∨ a = 0x47#8 := by bv_omega
  · exact writesBack_synCtrl s
  · exact writesBack_synOuten houtputs
  · exact writesBack_synWide s
  · exact writesBack_synSlow s
  · exact writesBack_synLow hlow
  · exact writesBack_synDiv hdiv
  · exact writesBack_synRoute0 s
  · exact writesBack_synRoute1 s

/-- Settles O60, by the row of the address: each write stores what the read shows, LOW, DIV and OUTEN by the
invariant. -/
theorem writingBackTheReadValueChangesNothing : Obligations.WritingBackTheReadValueChangesNothing := by
  intro s t a v hs ha hread hv
  refine WritesBack.perform_write ?_ hread hv
  obtain rfl | rfl | ⟨hlo, hhi⟩ | ⟨hlo, hhi⟩ | ⟨hlo, hhi⟩ | ⟨hlo, hhi⟩ := ha
  · exact writesBack_irqEn s
  · exact writesBack_capCtrl s
  · obtain rfl | rfl | rfl | rfl : a = 0x20#8 ∨ a = 0x21#8 ∨ a = 0x22#8 ∨ a = 0x23#8 := by bv_omega
    all_goals exact writesBack_capCenter rfl (fun _ => rfl) s
  · exact writesBack_pid hlo hhi s
  · exact writesBack_syn hlo hhi hs
  · obtain rfl | rfl | rfl | rfl | rfl | rfl : a = 0x50#8 ∨ a = 0x51#8 ∨ a = 0x52#8 ∨ a = 0x53#8 ∨ a = 0x54#8 ∨
        a = 0x55#8 := by bv_omega
    all_goals exact writesBack_synCmd rfl rfl (fun _ => rfl) s

end Sys2Proof.Machine
end

section
/-! The word of a transaction and back: the decoder inverts the encoder on the well-formed terms and refuses the word of
an ill-formed one (spec 30_encoding.md R80, R85, R87, R89). -/

namespace Sys2Proof.Machine

/-! ### The indexed rows: the low address bits are the index (30_encoding.md R85) -/

theorem bitVec2_cases (n : BitVec 2) : n = 0#2 ∨ n = 1#2 ∨ n = 2#2 ∨ n = 3#2 := by bv_omega

theorem bitVec3_cases (k : BitVec 3) :
    k = 0#3 ∨ k = 1#3 ∨ k = 2#3 ∨ k = 3#3 ∨ k = 4#3 ∨ k = 5#3 ∨ k = 6#3 ∨ k = 7#3 := by bv_omega

theorem decodeRead_capWidth (n : BitVec 2) : decodeRead (0x05#6 ++ n) = .ok (.rdCapWidth n) := by
  revert n; decide

theorem decodeRead_capStart (n : BitVec 2) : decodeRead (0x06#6 ++ n) = .ok (.rdCapStart n) := by
  revert n; decide

theorem decodeRead_capAxis (n : BitVec 2) : decodeRead (0x07#6 ++ n) = .ok (.rdCapAxis n) := by
  revert n; decide

theorem decodeRead_capCenter (n : BitVec 2) : decodeRead (0x08#6 ++ n) = .ok (.rdCapCenter n) := by
  revert n; decide

theorem decodeWrite_capCenter (n : BitVec 2) (v : Reg) : decodeWrite (0x08#6 ++ n) v = .ok (.wrCapCenter n v) := by
  obtain rfl | rfl | rfl | rfl := bitVec2_cases n
  all_goals rfl

/-- An index 6 or 7 names no register. -/
theorem decodeRead_synCmd (k : BitVec 3) :
    decodeRead (0x0A#5 ++ k) = if legalSlot k then .ok (.rdSynCmd k) else .error .unmapped := by
  revert k; decide

theorem decodeRead_synAct (o : BitVec 3) :
    decodeRead (0x0B#5 ++ o) = if legalSlot o then .ok (.rdSynAct o) else .error .unmapped := by
  revert o; decide

theorem decodeWrite_synCmd (k : BitVec 3) (v : Reg) :
    decodeWrite (0x0A#5 ++ k) v = if legalSlot k then .ok (.wrSynCmd k v) else .error .unmapped := by
  obtain rfl | rfl | rfl | rfl | rfl | rfl | rfl | rfl := bitVec3_cases k
  all_goals rfl

/-! ### Every transaction -/

/-- The item of 30_encoding.md R87 that the word of an ill-formed term meets. -/
def refusalOf (i : Instr) : Illegal :=
  match i with
  | .wrSynRoute0 _ => .route0Nibble
  | .wrSynRoute1 _ => .route1Nibble
  | _ => .unmapped

/-- The decoder on the word of any term, by its row: the header is `busWord`'s, and outside the indexed rows the address
is a constant. -/
theorem decode_encode (i : Instr) : decode (encode i) = if i.wellFormed then .ok i else .error (refusalOf i) := by
  cases i with
  | rdCapWidth n => exact (decode_busWord false _ _).trans (decodeRead_capWidth n)
  | rdCapStart n => exact (decode_busWord false _ _).trans (decodeRead_capStart n)
  | rdCapAxis n => exact (decode_busWord false _ _).trans (decodeRead_capAxis n)
  | rdCapCenter n => exact (decode_busWord false _ _).trans (decodeRead_capCenter n)
  | wrCapCenter n v => exact (decode_busWord true _ _).trans (decodeWrite_capCenter n v)
  | rdSynCmd k => exact (decode_busWord false _ _).trans (decodeRead_synCmd k)
  | rdSynAct o => exact (decode_busWord false _ _).trans (decodeRead_synAct o)
  | wrSynCmd k v => exact (decode_busWord true _ _).trans (decodeWrite_synCmd k v)
  | _ => exact decode_busWord _ _ _

theorem decode_encode_of_wellFormed {i : Instr} (h : i.wellFormed = true) : decode (encode i) = .ok i :=
  (decode_encode i).trans (if_pos h)

theorem decode_encode_of_not_wellFormed {i : Instr} (h : ¬ i.wellFormed = true) :
    decode (encode i) = .error (refusalOf i) :=
  (decode_encode i).trans (if_neg h)

/-- Settles O1, by the row of each transaction. -/
theorem decodeOfEncodeIsTheInstruction : Obligations.DecodeOfEncodeIsTheInstruction :=
  fun _ => decode_encode_of_wellFormed

/-- Settles O5: each of the eleven words is the word of its transaction, and the twelfth that of an ill-formed term. -/
theorem wordsOfTheSpecDecode : Obligations.WordsOfTheSpecDecode :=
  ⟨decode_encode .rdId, decode_encode (.wrIrqPend 0x0033), decode_encode .cmdClrErr, decode_encode .cmdSoftReset,
    decode_encode (.rdCapAxis 1), decode_encode (.wrCapCenter 3 12000), decode_encode (.wrPidSp 50),
    decode_encode .cmdPidStep, decode_encode (.wrSynCmd 4 1000), decode_encode (.rdSynAct 4),
    decode_encode (.wrSynRoute0 0x4210), decode_encode (.wrSynRoute0 0x6210)⟩

/-! ### The dispatch of an ill-formed term -/

theorem legalNibble_of_nibbleSlot {x : BitVec 4} {o : Slot} (h : nibbleSlot x = some o) : legalNibble x = true := by
  have hx := (nibbleSlot_eq_some x o).mp h
  exact decide_eq_true (by omega)

theorem indexSlot_eq_none {k : BitVec 3} (h : ¬ legalSlot k = true) : indexSlot k = none := by
  cases ho : indexSlot k with
  | none => rfl
  | some o =>
    have hk := (indexSlot_eq_some k o).mp ho
    exact absurd (decide_eq_true (by omega)) h

theorem execWrSynRoute0_of_illegal {v : Reg} (h : ¬ legalRoute0 v = true) (s : State) :
    execWrSynRoute0 v s = .next (illegalTransaction (encode (.wrSynRoute0 v)) s) := by
  unfold execWrSynRoute0
  split
  next h0 h1 h2 h3 =>
    exact absurd (by simp only [legalRoute0, legalNibble_of_nibbleSlot h0, legalNibble_of_nibbleSlot h1,
      legalNibble_of_nibbleSlot h2, legalNibble_of_nibbleSlot h3, Bool.and_self]) h
  next => rfl

theorem execWrSynRoute1_of_illegal {v : Reg} (h : ¬ legalRoute1 v = true) (s : State) :
    execWrSynRoute1 v s = .next (illegalTransaction (encode (.wrSynRoute1 v)) s) := by
  unfold execWrSynRoute1
  split
  next h0 h1 =>
    exact absurd (by simp only [legalRoute1, legalNibble_of_nibbleSlot h0, legalNibble_of_nibbleSlot h1,
      Bool.and_self]) h
  next => rfl

/-- The model's choice (log 10): an ill-formed term acts as the illegal transaction of its word. Five rows have a
constraint, so only their terms can be ill-formed. -/
theorem exec_of_not_wellFormed {i : Instr} (h : ¬ i.wellFormed = true) (s : State) :
    exec i s = .next (illegalTransaction (encode i) s) := by
  cases i with
  | rdSynCmd k => simp only [exec, execRdSynCmd, indexSlot_eq_none h]
  | wrSynCmd k v => simp only [exec, execWrSynCmd, indexSlot_eq_none h]
  | rdSynAct o => simp only [exec, execRdSynAct, indexSlot_eq_none h]
  | wrSynRoute0 v => exact execWrSynRoute0_of_illegal h s
  | wrSynRoute1 v => exact execWrSynRoute1_of_illegal h s
  | _ => exact absurd rfl h

/-- Settles O9: the word of a well-formed term decodes to it, that of an ill-formed one is refused. -/
theorem transactionIsWhatItsWordDoes : Obligations.TransactionIsWhatItsWordDoes := by
  intro i s
  by_cases h : i.wellFormed = true
  · exact perform_host_ok _ i s (decode_encode_of_wellFormed h)
  · rw [perform_host_error _ _ s (decode_encode_of_not_wellFormed h), exec_of_not_wellFormed h]

end Sys2Proof.Machine
end

section
/-! The word of a decoded transaction, and the opcode map's account of the decoder (spec 30_encoding.md R81, R82, R86,
R89). -/

namespace Sys2Proof.Machine

/-! ### The word of a decoded transaction -/

/-- An index taken from the low bits goes back under the row's high bits. -/
theorem append_low_bits {w n : Nat} {a : BitVec (w + n)} {c : BitVec w} (h : a.extractLsb' n w = c) :
    c ++ a.extractLsb' 0 n = a := by
  rw [← h, BitVec.extractLsb'_append_extractLsb']

theorem decodeRead_word (a : Addr) : Admits (fun i => encode i = busWord false a 0#16) (decodeRead a) := by
  unfold decodeRead
  iterate 7 refine .ite (fun ha => .ok (by rw [ha]; rfl)) ?_
  iterate 4 refine .ite (fun ha => .ok (congrArg (busWord false · 0#16) (append_low_bits ha))) ?_
  iterate 22 refine .ite (fun ha => .ok (by rw [ha]; rfl)) ?_
  iterate 2 refine .ite (fun ha => .ok (congrArg (busWord false · 0#16) (append_low_bits ha.1))) ?_
  exact .ite (fun _ => .error _) (.error _)

theorem decodeCommand_word (v : Reg) : Admits (fun i => encode i = busWord true 0x05#8 v) (decodeCommand v) := by
  unfold decodeCommand
  iterate 7 refine .ite (fun hv => .ok (by rw [hv]; rfl)) ?_
  exact .error _

theorem decodeWrite_word (a : Addr) (v : Reg) : Admits (fun i => encode i = busWord true a v) (decodeWrite a v) := by
  unfold decodeWrite
  refine .ite (fun ha => ha ▸ decodeCommand_word v) ?_
  iterate 3 refine .ite (fun ha => .ok (by rw [ha]; rfl)) ?_
  refine .ite (fun ha => .ok (congrArg (busWord true · v) (append_low_bits ha))) ?_
  iterate 13 refine .ite (fun ha => .ok (by rw [ha]; rfl)) ?_
  iterate 2 refine .ite (fun ha => .ite (fun _ => .ok (by rw [ha]; rfl)) (.error _)) ?_
  refine .ite (fun ha => .ok (congrArg (busWord true · v) (append_low_bits ha.1))) ?_
  exact .ite (fun _ => .error _) (.error _)

/-- The mask 0xFFFF0000 of 30_encoding.md R89 clears DATA. -/
theorem busWord_and_upperHalf (w : Bool) (a : Addr) (v : Reg) :
    busWord w a v &&& 0xFFFF0000#32 = busWord w a 0#16 := by
  have hmask : (0xFFFF0000#32 : BitVec (1 + 7 + 8 + 16)) = BitVec.allOnes (1 + 7 + 8) ++ 0#16 := rfl
  unfold busWord
  rw [hmask, BitVec.and_append, BitVec.and_allOnes, BitVec.and_zero]

/-- 30_encoding.md R86: decoding loses DATA on a read, and nothing on a write. -/
theorem encode_of_decode {t : BusWord} {i : Instr} (h : decode t = .ok i) :
    encode i = if fieldW t then t else t &&& 0xFFFF0000#32 := by
  rw [decode_eq] at h
  split_ifs at h with hrsv hw
  all_goals have ht := busWord_of_fields t (not_not.mp hrsv)
  · rw [if_pos hw, decodeWrite_word _ _ i h, ← hw, ht]
  · rw [if_neg hw, decodeRead_word _ i h, ← Bool.eq_false_of_not_eq_true hw,
      ← busWord_and_upperHalf _ _ (fieldData t), ht]

/-- Settles O2. -/
theorem encodeOfDecodeIsTheWord : Obligations.EncodeOfDecodeIsTheWord :=
  fun _ _ h => ⟨wellFormed_of_decode h, encode_of_decode h⟩

end Sys2Proof.Machine
end

section
/-! The opcode map and the decoder agree: the rows exclude each other, and a row selects a word exactly when the word
decodes to an instruction of that row (spec 30_encoding.md R81, R89). -/

namespace Sys2Proof

open Sys2Proof.Machine

/-! ### What a row selects -/

theorem OpcodeRow.selects_iff {f m t : BusWord} :
    OpcodeRow.selects ⟨f, m⟩ t = true ↔ t &&& m = f ∧ OpcodeRow.constraint ⟨f, m⟩ t = true := by
  simp [OpcodeRow.selects]

theorem fieldW_and (t m : BusWord) : fieldW (t &&& m) = (fieldW t && fieldW m) := BitVec.getLsbD_and

theorem fieldRsv_and (t m : BusWord) : fieldRsv (t &&& m) = fieldRsv t &&& fieldRsv m := BitVec.extractLsb'_and

theorem fieldAddr_and (t m : BusWord) : fieldAddr (t &&& m) = fieldAddr t &&& fieldAddr m := BitVec.extractLsb'_and

/-- The mask 0xFFFF0000 keeps ADDR. -/
theorem fieldAddr_and_upperHalf (t : BusWord) : fieldAddr (t &&& 0xFFFF0000#32) = fieldAddr t :=
  (fieldAddr_and t _).trans BitVec.and_allOnes

/-- Two rows that fix a common bit differently. -/
def OpcodeRow.Conflicts (r q : OpcodeRow) : Prop := r.fixedBits &&& q.mask ≠ q.fixedBits &&& r.mask

theorem OpcodeRow.Conflicts.not_both {r q : OpcodeRow} (h : r.Conflicts q) (t : BusWord) :
    ¬ (r.selects t = true ∧ q.selects t = true) := by
  rintro ⟨hr, hq⟩
  obtain ⟨hr, -⟩ := OpcodeRow.selects_iff.mp hr
  obtain ⟨hq, -⟩ := OpcodeRow.selects_iff.mp hq
  exact h (by rw [← hr, ← hq, BitVec.and_assoc, BitVec.and_assoc, BitVec.and_comm r.mask])

theorem opcodeMap_conflicts : opcodeMap.Pairwise OpcodeRow.Conflicts := by
  unfold OpcodeRow.Conflicts
  decide

/-! ### A selected word decodes -/

/-- Every word the row selects decodes. -/
def OpcodeRow.Decodes (r : OpcodeRow) : Prop := ∀ t : BusWord, r.selects t = true → ∃ i, decode t = .ok i

/-- The mask fixes W, and RSV at 0: what is left of decoding is the address and DATA. -/
theorem decode_of_header {t m f : BusWord} (h : t &&& m = f) (hw : fieldW m = true)
    (hm : fieldRsv m = BitVec.allOnes 7) (hf : fieldRsv f = 0#7) :
    decode t = if fieldW f then decodeWrite (fieldAddr t) (fieldData t) else decodeRead (fieldAddr t) := by
  have hrsv : fieldRsv t = 0#7 := by rw [← hf, ← h, fieldRsv_and, hm, BitVec.and_allOnes]
  have hW : fieldW t = fieldW f := by rw [← h, fieldW_and, hw, Bool.and_true]
  rw [decode_eq, if_neg (not_not.mpr hrsv), hW]

/-- The mask fixes the high bits of the address; the low bits are the index. -/
theorem eq_append_of_and {w n : Nat} {a m f : BitVec (w + n)} (h : a &&& m = f)
    (hm : m.extractLsb' n w = BitVec.allOnes w) : a = f.extractLsb' n w ++ a.extractLsb' 0 n := by
  refine (append_low_bits ?_).symm
  rw [← h, BitVec.extractLsb'_and, hm, BitVec.and_allOnes]

/-- ADDR[2:0] as the address has it and as the word has it. -/
theorem extractLsb'_fieldAddr (t : BusWord) : t.extractLsb' 16 3 = (fieldAddr t).extractLsb' 0 3 := by
  refine BitVec.eq_of_getLsbD_eq fun i hi => ?_
  simp [fieldAddr, hi, show i < 8 by omega]

/-- A command row fixes the whole word. -/
theorem OpcodeRow.Decodes.word {f : BusWord} {i : Instr} (h : decode f = .ok i) :
    OpcodeRow.Decodes ⟨f, 0xFFFFFFFF⟩ := by
  intro t ht
  obtain ⟨heq, -⟩ := OpcodeRow.selects_iff.mp ht
  have hone : t &&& BitVec.allOnes 32 = f := heq
  exact ⟨i, by rwa [← BitVec.and_allOnes (x := t), hone]⟩

/-- A row that fixes the address. -/
theorem OpcodeRow.Decodes.address {f : BusWord} (hf : fieldRsv f = 0#7)
    (h : ∀ t : BusWord, OpcodeRow.constraint ⟨f, 0xFFFF0000⟩ t = true →
      ∃ i, (if fieldW f then decodeWrite (fieldAddr f) (fieldData t) else decodeRead (fieldAddr f)) = .ok i) :
    OpcodeRow.Decodes ⟨f, 0xFFFF0000⟩ := by
  intro t ht
  obtain ⟨heq, hc⟩ := OpcodeRow.selects_iff.mp ht
  have haddr : fieldAddr t = fieldAddr f := (fieldAddr_and_upperHalf t).symm.trans (congrArg fieldAddr heq)
  rw [decode_of_header heq rfl rfl hf, haddr]
  exact h t hc

/-- A row that is indexed by ADDR[1:0]. -/
theorem OpcodeRow.Decodes.index2 {f : BusWord} (hf : fieldRsv f = 0#7)
    (h : ∀ (n : BitVec 2) (v : Reg), ∃ i, (if fieldW f then decodeWrite ((fieldAddr f).extractLsb' 2 6 ++ n) v
      else decodeRead ((fieldAddr f).extractLsb' 2 6 ++ n)) = .ok i) : OpcodeRow.Decodes ⟨f, 0xFFFC0000⟩ := by
  intro t ht
  obtain ⟨heq, -⟩ := OpcodeRow.selects_iff.mp ht
  have haddr := eq_append_of_and (w := 6) (n := 2) ((fieldAddr_and t _).symm.trans (congrArg fieldAddr heq)) rfl
  rw [decode_of_header heq rfl rfl hf, haddr]
  exact h _ _

/-- A row that is indexed by ADDR[2:0], at most 5 by its constraint. -/
theorem OpcodeRow.Decodes.index3 {f : BusWord} (hf : fieldRsv f = 0#7)
    (h : ∀ (k : BitVec 3) (v : Reg), legalSlot k = true →
      ∃ i, (if fieldW f then decodeWrite ((fieldAddr f).extractLsb' 3 5 ++ k) v
        else decodeRead ((fieldAddr f).extractLsb' 3 5 ++ k)) = .ok i) : OpcodeRow.Decodes ⟨f, 0xFFF80000⟩ := by
  intro t ht
  obtain ⟨heq, hc⟩ := OpcodeRow.selects_iff.mp ht
  have haddr := eq_append_of_and (w := 5) (n := 3) ((fieldAddr_and t _).symm.trans (congrArg fieldAddr heq)) rfl
  rw [decode_of_header heq rfl rfl hf, haddr]
  exact h _ _ (extractLsb'_fieldAddr t ▸ hc)

/-- The rows in the order of the map: global, commands, capture, PID, synthesizer. -/
theorem opcodeMap_decodes : ∀ r ∈ opcodeMap, r.Decodes := by
  unfold opcodeMap
  iterate 7 refine List.forall_mem_cons.mpr ⟨.address rfl fun _ _ => ⟨_, rfl⟩, ?_⟩
  iterate 7 refine List.forall_mem_cons.mpr ⟨.word rfl, ?_⟩
  iterate 3 refine List.forall_mem_cons.mpr ⟨.address rfl fun _ _ => ⟨_, rfl⟩, ?_⟩
  refine List.forall_mem_cons.mpr ⟨.index2 rfl fun n _ => ⟨_, decodeRead_capWidth n⟩, ?_⟩
  refine List.forall_mem_cons.mpr ⟨.index2 rfl fun n _ => ⟨_, decodeRead_capStart n⟩, ?_⟩
  refine List.forall_mem_cons.mpr ⟨.index2 rfl fun n _ => ⟨_, decodeRead_capAxis n⟩, ?_⟩
  refine List.forall_mem_cons.mpr ⟨.index2 rfl fun n _ => ⟨_, decodeRead_capCenter n⟩, ?_⟩
  refine List.forall_mem_cons.mpr ⟨.index2 rfl fun n v => ⟨_, decodeWrite_capCenter n v⟩, ?_⟩
  iterate 31 refine List.forall_mem_cons.mpr ⟨.address rfl fun _ _ => ⟨_, rfl⟩, ?_⟩
  refine List.forall_mem_cons.mpr ⟨.address rfl fun _ hc => ⟨_, if_pos hc⟩, ?_⟩
  refine List.forall_mem_cons.mpr ⟨.address rfl fun _ _ => ⟨_, rfl⟩, ?_⟩
  refine List.forall_mem_cons.mpr ⟨.address rfl fun _ hc => ⟨_, if_pos hc⟩, ?_⟩
  iterate 3 refine List.forall_mem_cons.mpr ⟨.address rfl fun _ _ => ⟨_, rfl⟩, ?_⟩
  refine List.forall_mem_cons.mpr ⟨.index3 rfl fun k _ hk => ⟨_, (decodeRead_synCmd k).trans (if_pos hk)⟩, ?_⟩
  refine List.forall_mem_cons.mpr ⟨.index3 rfl fun k v hk => ⟨_, (decodeWrite_synCmd k v).trans (if_pos hk)⟩, ?_⟩
  refine List.forall_mem_cons.mpr ⟨.index3 rfl fun k _ hk => ⟨_, (decodeRead_synAct k).trans (if_pos hk)⟩, ?_⟩
  exact List.forall_mem_nil _

/-! ### The row of an instruction -/

/-- The mask column of 30_encoding.md R89. -/
def rowMask (i : Instr) : BusWord :=
  match i with
  | .cmdClrErr | .cmdCapClr | .cmdPidStep | .cmdPidClr | .cmdSynCommit | .cmdSynCancel | .cmdSoftReset => 0xFFFFFFFF
  | .rdCapWidth _ | .rdCapStart _ | .rdCapAxis _ | .rdCapCenter _ | .wrCapCenter _ _ => 0xFFFC0000
  | .rdSynCmd _ | .wrSynCmd _ _ | .rdSynAct _ => 0xFFF80000
  | _ => 0xFFFF0000

/-- The row of the map an instruction belongs to: the bits of its word under its mask. -/
def rowOf (i : Instr) : OpcodeRow := ⟨encode i &&& rowMask i, rowMask i⟩

/-- A mask without DATA bits: DATA is no part of the row. -/
theorem row_of_busWord {m : BusWord} (hm : 0xFFFF0000#32 &&& m = m) (w : Bool) (a : Addr) (v : Reg) :
    (⟨busWord w a v &&& m, m⟩ : OpcodeRow) = ⟨busWord w a 0#16 &&& m, m⟩ := by
  rw [← busWord_and_upperHalf w a v, BitVec.and_assoc, hm]

theorem rowOf_mem (i : Instr) : rowOf i ∈ opcodeMap := by
  have hdata {m : BusWord} (hm : 0xFFFF0000#32 &&& m = m) (w : Bool) (a : Addr) (v : Reg)
      (h : ⟨busWord w a 0#16 &&& m, m⟩ ∈ opcodeMap) : ⟨busWord w a v &&& m, m⟩ ∈ opcodeMap :=
    (row_of_busWord hm w a v).symm ▸ h
  cases i with
  | cmdClrErr | cmdCapClr | cmdPidStep | cmdPidClr | cmdSynCommit | cmdSynCancel | cmdSoftReset => decide
  | rdCapWidth n | rdCapStart n | rdCapAxis n | rdCapCenter n => revert n; decide
  | rdSynCmd k | rdSynAct k => revert k; decide
  | wrCapCenter n v => exact hdata (m := 0xFFFC0000#32) rfl _ _ v (by revert n; decide)
  | wrSynCmd k v => exact hdata (m := 0xFFF80000#32) rfl _ _ v (by revert k; decide)
  | _ => exact hdata (m := 0xFFFF0000#32) rfl _ _ _ (by decide)

/-- The row of a word's instruction asks of the word what makes the instruction well formed. -/
theorem constraint_rowOf (i : Instr) : (rowOf i).constraint (encode i) = i.wellFormed := by
  have hdata {m : BusWord} (hm : 0xFFFF0000#32 &&& m = m) (w : Bool) (a : Addr) (v : Reg) :
      OpcodeRow.constraint ⟨busWord w a v &&& m, m⟩ (busWord w a v) =
        OpcodeRow.constraint ⟨busWord w a 0#16 &&& m, m⟩ (busWord w a v) :=
    congrArg (OpcodeRow.constraint · _) (row_of_busWord hm w a v)
  cases i with
  | cmdClrErr | cmdCapClr | cmdPidStep | cmdPidClr | cmdSynCommit | cmdSynCancel | cmdSoftReset => rfl
  | rdCapWidth n | rdCapStart n | rdCapAxis n | rdCapCenter n => revert n; decide
  | wrCapCenter n v =>
    refine (hdata (m := 0xFFFC0000#32) rfl _ _ v).trans ?_
    obtain rfl | rfl | rfl | rfl := bitVec2_cases n
    all_goals rfl
  | rdSynCmd k | rdSynAct k => revert k; decide
  | wrSynCmd k v =>
    have hk : (busWord true (0x0A#5 ++ k) v).extractLsb' 16 3 = k := by
      rw [extractLsb'_fieldAddr, fieldAddr_busWord, BitVec.extractLsb'_append_eq_right]
    exact congrArg legalSlot hk
  | wrSynRoute0 v => exact (hdata (m := 0xFFFF0000#32) rfl _ _ v).trans (congrArg legalRoute0 (fieldData_busWord _ _ v))
  | wrSynRoute1 v => exact (hdata (m := 0xFFFF0000#32) rfl _ _ v).trans (congrArg legalRoute1 (fieldData_busWord _ _ v))
  | _ => exact hdata (m := 0xFFFF0000#32) rfl _ _ _

theorem rowOf_selects_encode {i : Instr} (h : i.wellFormed = true) : (rowOf i).selects (encode i) = true :=
  OpcodeRow.selects_iff.mpr ⟨rfl, (constraint_rowOf i).trans h⟩

/-! ### DATA on a read -/

theorem opcodeMap_masks : ∀ r ∈ opcodeMap,
    fieldW r.mask = true ∧ (fieldW r.fixedBits = false → 0xFFFF0000#32 &&& r.mask = r.mask) := by
  decide

/-- 30_encoding.md R82: a row that selects a read selects it with any DATA. -/
theorem selects_of_selects_upperHalf {r : OpcodeRow} {t : BusWord} (hr : r ∈ opcodeMap) (hw : fieldW t = false)
    (h : r.selects (t &&& 0xFFFF0000#32) = true) : r.selects t = true := by
  obtain ⟨hmaskW, hmask⟩ := opcodeMap_masks r hr
  obtain ⟨hmatch, hc⟩ := OpcodeRow.selects_iff.mp h
  have hread : fieldW r.fixedBits = false := by
    rw [← hmatch, fieldW_and, fieldW_and, hw, Bool.false_and, Bool.false_and]
  rw [BitVec.and_assoc, hmask hread] at hmatch
  refine OpcodeRow.selects_iff.mpr ⟨hmatch, ?_⟩
  unfold OpcodeRow.constraint at hc ⊢
  split_ifs at hc ⊢ with hslot hroute0 hroute1
  · rw [extractLsb'_fieldAddr, fieldAddr_and_upperHalf] at hc
    rwa [extractLsb'_fieldAddr]
  · rw [hroute0] at hread
    exact nomatch hread
  · rw [hroute1] at hread
    exact nomatch hread
  · rfl

/-- The row of a decoded word's instruction selects the word. -/
theorem rowOf_selects_of_decode {t : BusWord} {i : Instr} (h : decode t = .ok i) : (rowOf i).selects t = true := by
  have hself := rowOf_selects_encode (wellFormed_of_decode h)
  rw [encode_of_decode h] at hself
  split_ifs at hself with hw
  · exact hself
  · exact selects_of_selects_upperHalf (rowOf_mem i) (Bool.eq_false_of_not_eq_true hw) hself

/-- Settles O3: conflicting bits make the rows exclusive, each row's words decode, and a decoded word is selected by its
instruction's row. -/
theorem decodeFollowsTheOpcodeMap : Obligations.DecodeFollowsTheOpcodeMap := by
  refine ⟨rfl, fun t => ⟨?exclusive, ?selected, ?row⟩⟩
  case exclusive => exact opcodeMap_conflicts.imp fun h => h.not_both t
  case selected =>
    exact ⟨fun ⟨i, hi⟩ => ⟨rowOf i, rowOf_mem i, rowOf_selects_of_decode hi⟩,
      fun ⟨r, hr, ht⟩ => opcodeMap_decodes r hr t ht⟩
  case row =>
    exact fun i hi =>
      ⟨rowOf i, rowOf_mem i, rowOf_selects_of_decode hi, rowOf_selects_encode (wellFormed_of_decode hi)⟩

end Sys2Proof
end

section
/-! The illegal words: which address and which DATA the decoder refuses, on numbers (spec 30_encoding.md R87,
20_memory.md R66). -/

namespace Sys2Proof

open Sys2Proof.Machine

/-! ### The fields as numbers (30_encoding.md R80) -/

theorem toNat_fieldRsv (t : BusWord) : (fieldRsv t).toNat = t.toNat / 2 ^ 24 % 2 ^ 7 := by
  rw [fieldRsv, BitVec.extractLsb'_toNat, Nat.shiftRight_eq_div_pow]

theorem toNat_fieldAddr (t : BusWord) : (fieldAddr t).toNat = t.toNat / 2 ^ 16 % 2 ^ 8 := by
  rw [fieldAddr, BitVec.extractLsb'_toNat, Nat.shiftRight_eq_div_pow]

theorem toNat_fieldData (t : BusWord) : (fieldData t).toNat = t.toNat % 2 ^ 16 := by
  rw [fieldData, BitVec.extractLsb'_toNat, Nat.shiftRight_zero]

/-! ### Refusals -/

/-- The decoding answers an item of 30_encoding.md R87. -/
def Refused (r : Except Illegal Instr) : Prop := ∃ e, r = .error e

/-- Item 2 of 30_encoding.md R87, with the gaps of 20_memory.md R66. -/
abbrev UnmappedAt (n : Nat) : Prop :=
  (0x06 ≤ n ∧ n ≤ 0x0F) ∨ (0x12 ≤ n ∧ n ≤ 0x13) ∨ (0x24 ≤ n ∧ n ≤ 0x2F) ∨ (0x3B ≤ n ∧ n ≤ 0x3F) ∨
    (0x4B ≤ n ∧ n ≤ 0x4F) ∨ (0x56 ≤ n ∧ n ≤ 0x57) ∨ 0x5E ≤ n

/-- The registers of access kind R (10_state.md R22). -/
abbrev ReadOnlyAt (n : Nat) : Prop :=
  n = 0x00 ∨ n = 0x01 ∨ n = 0x04 ∨ n = 0x11 ∨ (0x14 ≤ n ∧ n ≤ 0x1F) ∨ (0x37 ≤ n ∧ n ≤ 0x3A) ∨
    (0x48 ≤ n ∧ n ≤ 0x4A) ∨ (0x58 ≤ n ∧ n ≤ 0x5D)

theorem refused_error (e : Illegal) : Refused (.error e) := ⟨e, rfl⟩

theorem refused_ite_error {c : Prop} [Decidable c] (e e' : Illegal) :
    Refused (if c then .error e else .error e') := by
  split
  case isTrue => exact refused_error e
  case isFalse => exact refused_error e'

/-- A branch that answers is passed by every refused operand. -/
theorem refused_ite_ok {c : Prop} [Decidable c] {i : Instr} {r : Except Illegal Instr} :
    Refused (if c then .ok i else r) ↔ ¬ c ∧ Refused r := by
  split
  case isTrue h => exact iff_of_false (fun ⟨_, h⟩ => nomatch h) fun ⟨hc, _⟩ => hc h
  case isFalse h => exact (and_iff_right h).symm

/-- Items 2 and 4: a read is refused at the addresses that are left when no row matches. -/
theorem refused_decodeRead (a : Addr) : Refused (decodeRead a) ↔ UnmappedAt a.toNat ∨ a.toNat = 0x05 := by
  have hlt := a.isLt
  simp only [decodeRead, refused_ite_ok, refused_ite_error, and_true, legalSlot, decide_eq_true_iff, BitVec.toNat_eq,
    BitVec.extractLsb'_toNat, Nat.shiftRight_eq_div_pow, BitVec.toNat_ofNat]
  omega

/-- Items 2 and 3: so is a write, away from CMD and the routes, where DATA counts. -/
theorem refused_decodeWrite {a : Addr} (hcmd : a.toNat ≠ 0x05) (h0 : a.toNat ≠ 0x46) (h1 : a.toNat ≠ 0x47) (v : Reg) :
    Refused (decodeWrite a v) ↔ UnmappedAt a.toNat ∨ ReadOnlyAt a.toNat := by
  have hlt := a.isLt
  have hne (c : Addr) (h : a.toNat ≠ c.toNat) : ¬ a = c := fun hc => h (congrArg _ hc)
  rw [decodeWrite, if_neg (hne 0x05#8 hcmd), if_neg (hne 0x46#8 h0), if_neg (hne 0x47#8 h1)]
  simp only [refused_ite_ok, refused_ite_error, and_true, legalSlot, decide_eq_true_iff, BitVec.toNat_eq,
    BitVec.extractLsb'_toNat, Nat.shiftRight_eq_div_pow, BitVec.toNat_ofNat]
  omega

/-- Item 5 of 30_encoding.md R87. -/
theorem refused_decodeCommand (v : Reg) :
    Refused (decodeCommand v) ↔ v.toNat ∉ [0x0001, 0x0002, 0x0010, 0x0011, 0x0020, 0x0021, 0x00A5] := by
  simp [decodeCommand, refused_ite_ok, refused_error, BitVec.toNat_eq]

theorem legalNibble_extractLsb' (v : Reg) (k : Nat) :
    legalNibble (v.extractLsb' k 4) = true ↔ v.toNat / 2 ^ k % 16 ≤ 5 := by
  rw [legalNibble, decide_eq_true_iff, BitVec.extractLsb'_toNat, Nat.shiftRight_eq_div_pow]

/-- Item 6 of 30_encoding.md R87. -/
theorem refused_decodeWrite_route0 (v : Reg) :
    Refused (decodeWrite 0x46#8 v) ↔
      5 < v.toNat % 16 ∨ 5 < v.toNat / 16 % 16 ∨ 5 < v.toNat / 256 % 16 ∨ 5 < v.toNat / 4096 := by
  refine (refused_ite_ok.trans (and_iff_left (refused_error _))).trans ?_
  simp only [legalRoute0, Bool.and_eq_true, legalNibble_extractLsb']
  omega

/-- Item 7 of 30_encoding.md R87. -/
theorem refused_decodeWrite_route1 (v : Reg) :
    Refused (decodeWrite 0x47#8 v) ↔ 5 < v.toNat % 16 ∨ 5 < v.toNat / 16 % 16 := by
  refine (refused_ite_ok.trans (and_iff_left (refused_error _))).trans ?_
  simp only [legalRoute1, Bool.and_eq_true, legalNibble_extractLsb']
  omega

/-- Settles O4, by RSV, by W, and for a write by the three addresses at which DATA counts. -/
theorem illegalWordsAreTheListedOnes : Obligations.IllegalWordsAreTheListedOnes := by
  intro t
  dsimp only
  rw [← toNat_fieldRsv, ← toNat_fieldAddr, ← toNat_fieldData, decode_eq]
  by_cases hrsv : fieldRsv t = 0#7
  case neg => exact iff_of_true ⟨_, if_pos hrsv⟩ (.inl fun h => hrsv (BitVec.eq_of_toNat_eq h))
  have hW : t.getLsbD 31 = fieldW t := rfl
  rw [if_neg (not_not.mpr hrsv), hrsv, hW]
  generalize fieldW t = w, fieldAddr t = a, fieldData t = v
  cases w with
  | false => exact (refused_decodeRead a).trans (by simp)
  | true =>
    by_cases hcmd : a.toNat = 0x05
    · obtain rfl : a = 0x05#8 := BitVec.eq_of_toNat_eq hcmd
      exact (refused_decodeCommand v).trans (by simp)
    by_cases h0 : a.toNat = 0x46
    · obtain rfl : a = 0x46#8 := BitVec.eq_of_toNat_eq h0
      exact (refused_decodeWrite_route0 v).trans (by simp)
    by_cases h1 : a.toNat = 0x47
    · obtain rfl : a = 0x47#8 := BitVec.eq_of_toNat_eq h1
      exact (refused_decodeWrite_route1 v).trans (by simp)
    exact (refused_decodeWrite hcmd h0 h1 v).trans (by simp [hcmd, h0, h1])

end Sys2Proof
end

section
/-! The global page: its reads, its writes and commands, and what a tick leaves of the configuration (spec
40_global.md). -/

namespace Sys2Proof.Machine

/-! ### Words of a row that fixes the address (30_encoding.md R80) -/

/-- A read row, whatever DATA holds (30_encoding.md R82). -/
theorem decode_readRow (a : Addr) (v : Reg) : decode (0x00#8 ++ a ++ v) = decodeRead a := decode_busWord false a v

theorem decode_writeRow (a : Addr) (v : Reg) : decode (0x80#8 ++ a ++ v) = decodeWrite a v := decode_busWord true a v

/-- A read row answers its register. -/
theorem ReadsAs.of_reply {a : Addr} {i : Instr} {value : State → Reg} (hdecode : decodeRead a = .ok i)
    (hexec : ∀ s, exec i s = .next (reply (value s) s)) : ReadsAs (0x00#8 ++ a) i value :=
  ⟨fun data => (decode_readRow a data).trans hdecode, hexec⟩

/-! ### The STATUS view (40_global.md R103) -/

/-- Fields side by side, as a number. -/
theorem toNat_append_eq_add {m n : Nat} (x : BitVec m) (y : BitVec n) :
    (x ++ y).toNat = x.toNat * 2 ^ n + y.toNat := by
  rw [BitVec.toNat_append, ← Nat.shiftLeft_add_eq_or_of_lt y.isLt, Nat.shiftLeft_eq]

theorem ite_zero_eq_toNat_mul (b : Bool) (k : Nat) : (if b then k else 0) = b.toNat * k := by cases b <;> simp

/-- 40_global.md R103: the fields of STATUS, added up at their places. -/
theorem statusWord_eq (s : State) :
    statusWord s = BitVec.ofNat 16 (
      (if s.busErr then 2 ^ 15 else 0) + (if s.syn.pend then 2 ^ 8 else 0) + s.cap.prev.toNat * 2 ^ 4 +
        s.cap.valid.toNat) := by
  have hbusErr := s.busErr.toNat_lt
  have hpend := s.syn.pend.toNat_lt
  refine BitVec.eq_of_toNat_eq ?_
  simp only [statusWord, toNat_append_eq_add, BitVec.toNat_ofBool, BitVec.toNat_ofNat, ite_zero_eq_toNat_mul]
  omega

/-! ### The interrupt registers (10_state.md R23, R55) -/

/-- 10_state.md R23: a field reads as its number. -/
theorem zext16_eq_ofNat {w : Nat} (x : BitVec w) : zext16 x = BitVec.ofNat 16 x.toNat :=
  BitVec.eq_of_toNat_eq (by rw [zext16, BitVec.toNat_setWidth, BitVec.toNat_ofNat])

theorem getLsbD_lowBits_of_lt {w b : Nat} (hb : b < w) (v : Reg) : (lowBits w v).getLsbD b = v.getLsbD b := by
  rw [getLsbD_lowBits, decide_eq_true hb, Bool.true_and]

/-- 60_exceptions.md R236: IRQ is high exactly while an enabled bit is pending. -/
theorem irq_eq_true_iff (s : State) :
    s.irq = true ↔ ∃ b : Nat, b < 11 ∧ s.irqPend.getLsbD b = true ∧ s.irqEn.getLsbD b = true := by
  simp only [State.irq, bne_iff_ne, ne_eq, BitVec.eq_of_getLsbD_eq_iff, BitVec.getLsbD_and, BitVec.getLsbD_zero,
    not_forall, Bool.not_eq_false, Bool.and_eq_true, exists_prop]

/-! ### Ticks and reset -/

/-- 40_global.md R101: the tick reads the sequencer's configuration and writes none of it. -/
theorem synthTick_config (d : Draws) (s : State) :
    let y := (synthTick d s).syn
    y.en = s.syn.en ∧ y.outen = s.syn.outen ∧ y.wide = s.syn.wide ∧ y.slow = s.syn.slow ∧ y.low = s.syn.low ∧
      y.div = s.syn.div ∧ y.route = s.syn.route ∧ y.cmd = s.syn.cmd := by
  obtain ⟨-, h⟩ | ⟨-, h⟩ | ⟨-, -, -, h⟩ := synthTick_cases d s
  case inr.inl =>
    obtain ⟨active, level, onAt, offAt, hstart⟩ := frameStart_eq d s
    rw [h, hstart]
    exact ⟨rfl, rfl, rfl, rfl, rfl, rfl, rfl, rfl⟩
  all_goals
    rw [h]
    exact ⟨rfl, rfl, rfl, rfl, rfl, rfl, rfl, rfl⟩

/-- The values ResetState() assigns are those of power-on (70_reset_and_hazards.md R250, R251). -/
theorem resetState_eq_powerOn (s : State) :
    resetState s = { State.powerOn s.cap.width s.cap.start with schedule := s.schedule, drawIx := s.drawIx } := rfl

/-! ### Obligations -/

/-- Settles O11: each row decodes by its address, and each read answers its register; STATUS adds its fields up, and the
interrupt registers are zero-extended. -/
theorem globalReadsReturnTheirRegisters : Obligations.GlobalReadsReturnTheirRegisters :=
  ⟨.of_reply (a := 0x00#8) rfl fun _ => rfl,
    .of_reply (a := 0x01#8) rfl fun s => by rw [← statusWord_eq]; rfl,
    .of_reply (a := 0x02#8) rfl fun s => by rw [← zext16_eq_ofNat]; rfl,
    .of_reply (a := 0x03#8) rfl fun s => by rw [← zext16_eq_ofNat]; rfl,
    .of_reply (a := 0x04#8) rfl fun _ => rfl⟩

/-- Settles O17, bit by bit. -/
theorem pendingWriteClearsTheNamedBits : Obligations.PendingWriteClearsTheNamedBits := by
  refine ⟨decode_writeRow 0x02#8, fun s v => ⟨s.irqPend &&& ~~~lowBits 11 v, rfl, fun b hb => ?_⟩⟩
  rw [BitVec.getLsbD_and, BitVec.getLsbD_not, getLsbD_lowBits_of_lt hb, decide_eq_true hb, Bool.true_and]

/-- Settles O18: the enables of the new state are DATA's bits, and IRQ is their level. -/
theorem enableWriteStoresElevenBits : Obligations.EnableWriteStoresElevenBits := by
  refine ⟨decode_writeRow 0x03#8, fun s v => ⟨lowBits 11 v, rfl, fun _ hb => getLsbD_lowBits_of_lt hb v, ?_⟩⟩
  rw [irq_eq_true_iff]
  refine exists_congr fun b => and_congr_right fun hb => ?_
  rw [getLsbD_lowBits_of_lt hb]

/-- Settles O42: CaptureTick leaves the synthesizer alone, and SynthTick its configuration. -/
theorem tickCountsAndKeepsTheConfiguration : Obligations.TickCountsAndKeepsTheConfiguration := by
  intro levels d s
  obtain ⟨htcnt, hirqEn, hbusErr, hpid, -, hschedule, hdrawIx, hcap⟩ := tick_frame levels (boundedDraws d) s
  obtain ⟨-, -, -, -, hsyn, -, -, -, hcapEn, hcenter⟩ :=
    captureTick_frame levels { silent s with tcnt := s.tcnt + 1#16 }
  have hconfig := synthTick_config (boundedDraws d) (captureTick levels { silent s with tcnt := s.tcnt + 1#16 })
  rw [hsyn] at hconfig
  obtain ⟨hen, houten, hwide, hslow, hlow, hdiv, hroute, hcmd⟩ := hconfig
  refine ⟨_, perform_tick levels d s, ?tcnt, hirqEn, hbusErr, hpid, ?en, ?center, hen, houten, hwide, hslow, hlow,
    hdiv, hroute, hcmd, hschedule, hdrawIx⟩
  case tcnt => exact (congrArg BitVec.toNat htcnt).trans (BitVec.toNat_add _ _)
  case en => exact (congrArg Cap.en hcap).trans hcapEn
  case center => exact (congrArg Cap.center hcap).trans hcenter

/-- Settles O19. -/
theorem clearErrorClearsBusErrAlone : Obligations.ClearErrorClearsBusErrAlone :=
  ⟨decode_writeRow 0x05#8 0x0001#16, fun _ => rfl⟩

/-- Settles O20: the command and the reset step are one state change, ResetState(). -/
theorem softResetIsTheResetState : Obligations.SoftResetIsTheResetState :=
  ⟨decode_writeRow 0x05#8 0x00A5#16, fun s =>
    ⟨congrArg Host.Outcome.next (resetState_eq_powerOn s), perform_reset s⟩⟩

end Sys2Proof.Machine
end

section
/-! The capture unit: its reads and writes, what a tick does on one channel, and what a run of ticks leaves of it (spec
41_capture.md). -/

namespace Sys2Proof.Machine

/-! ### Rows indexed by a channel (30_encoding.md R85) -/

@[simp] theorem indexChan_ofNat (n : Chan) : indexChan (BitVec.ofNat 2 n.val) = n := by
  revert n; decide

/-- The upper half of a word of a channel's row: RSV and W, six address bits, and the index. -/
theorem channelRow_eq (h : BitVec 8) (c : BitVec 6) (n : Chan) :
    BitVec.ofNat 16 (h.toNat * 256 + c.toNat * 4 + n.val) = h ++ (c ++ BitVec.ofNat 2 n.val) := by
  refine BitVec.eq_of_toNat_eq ?_
  simp only [toNat_append_eq_add, BitVec.toNat_ofNat]
  omega

/-- A read row of a channel answers its register. -/
theorem ReadsAs.of_channelRow {c : BitVec 6} {i : Instr} {value : State → Reg} (n : Chan)
    (hdecode : decodeRead (c ++ BitVec.ofNat 2 n.val) = .ok i)
    (hexec : ∀ s, exec i s = .next (reply (value s) s)) : ReadsAs (BitVec.ofNat 16 (c.toNat * 4 + n.val)) i value := by
  have hrow := channelRow_eq 0x00#8 c n
  rw [BitVec.toNat_zero, Nat.zero_mul, Nat.zero_add] at hrow
  rw [hrow]
  exact .of_reply hdecode hexec

/-- Settles O12: each row decodes by its address, and each read answers its register; the index bits of a channel's row
name the channel, and the axis divides as the library truncates. -/
theorem captureReadsReturnTheirRegisters : Obligations.CaptureReadsReturnTheirRegisters :=
  ⟨.of_reply (a := 0x10#8) rfl fun s => by rw [← zext16_eq_ofNat]; rfl,
    .of_reply (a := 0x11#8) rfl fun _ => rfl,
    fun n => ⟨
      .of_channelRow (c := 0x05#6) n (decodeRead_capWidth _) fun s => by
        simp only [exec, execRdCapWidth, indexChan_ofNat],
      .of_channelRow (c := 0x06#6) n (decodeRead_capStart _) fun s => by
        simp only [exec, execRdCapStart, indexChan_ofNat],
      .of_channelRow (c := 0x07#6) n (decodeRead_capAxis _) fun s => by
        simp only [exec, execRdCapAxis, indexChan_ofNat, axisValue, sdiv8_eq_tdiv, wrap16],
      .of_channelRow (c := 0x08#6) n (decodeRead_capCenter _) fun s => by
        simp only [exec, execRdCapCenter, indexChan_ofNat]⟩⟩

/-! ### Writes and the command -/

/-- Settles O22: the mask of the write drops RISE_SEEN exactly where EN was 1 and DATA is 0. -/
theorem captureControlWriteForgetsDisabledEdges : Obligations.CaptureControlWriteForgetsDisabledEdges := by
  refine ⟨decode_writeRow 0x10#8, fun s v =>
    ⟨lowBits 4 v, s.cap.riseSeen &&& (~~~s.cap.en ||| lowBits 4 v), rfl, fun n => ?_⟩⟩
  refine ⟨getLsbD_lowBits_of_lt n.isLt v, ?_⟩
  rw [BitVec.getLsbD_and, BitVec.getLsbD_or, BitVec.getLsbD_not, getLsbD_lowBits_of_lt n.isLt, decide_eq_true n.isLt,
    Bool.true_and]
  split
  case isTrue h =>
    obtain ⟨hen, hoff⟩ := h
    rw [hen, hoff]
    exact Bool.and_false _
  case isFalse h =>
    have hkept : (!s.cap.en.getLsbD n.val || v.getLsbD n.val) = true := by
      rw [not_and, Bool.not_eq_false] at h
      rwa [Bool.or_eq_true, Bool.not_eq_true', ← Bool.not_eq_true, ← imp_iff_not_or]
    rw [hkept, Bool.and_true]

theorem decode_wrCapCenter (n : Chan) (v : Reg) :
    decode (BitVec.ofNat 16 (0x8020 + n.val) ++ v) = .ok (.wrCapCenter (BitVec.ofNat 2 n.val) v) :=
  calc decode (BitVec.ofNat 16 (0x8020 + n.val) ++ v)
    _ = decode (0x80#8 ++ (0x08#6 ++ BitVec.ofNat 2 n.val) ++ v) := by rw [← channelRow_eq]; rfl
    _ = decodeWrite (0x08#6 ++ BitVec.ofNat 2 n.val) v := decode_writeRow _ v
    _ = .ok (.wrCapCenter (BitVec.ofNat 2 n.val) v) := decodeWrite_capCenter _ v

theorem exec_wrCapCenter (n : Chan) (v : Reg) (s : State) :
    exec (.wrCapCenter (BitVec.ofNat 2 n.val) v) s =
      .next { s with busRdata := none, cap := { s.cap with center := s.cap.center.set n v } } := by
  simp only [exec, execWrCapCenter, indexChan_ofNat]
  rfl

/-- Settles O23: the write sets one entry of CENTER. -/
theorem centerWriteAndCaptureClear : Obligations.CenterWriteAndCaptureClear := by
  refine ⟨fun n v => ⟨decode_wrCapCenter n v, fun s => ⟨s.cap.center.set n v, exec_wrCapCenter n v s, ?_, ?_⟩⟩,
    decode_writeRow 0x05#8 0x0002#16, fun _ => rfl⟩
  · exact Vector.getElem_set_self n.isLt
  · exact fun m hm => Vector.getElem_set_ne n.isLt m.isLt fun h => hm (Fin.ext h.symm)

/-! ### One tick on one channel (41_capture.md R120 to R123) -/

theorem recordsRise_iff {levels : BitVec 4} {n : Chan} {s : State} :
    recordsRise levels n s = true ↔
      s.cap.en.getLsbD n.val = true ∧ s.cap.prev.getLsbD n.val = false ∧ levels.getLsbD n.val = true := by
  simp only [recordsRise, risesOn, Bool.and_eq_true, Bool.not_eq_true']

theorem publishes_iff {levels : BitVec 4} {n : Chan} {s : State} :
    publishes levels n s = true ↔
      s.cap.en.getLsbD n.val = true ∧ (s.cap.prev.getLsbD n.val = true ∧ levels.getLsbD n.val = false) ∧
        s.cap.riseSeen.getLsbD n.val = true := by
  simp only [publishes, fallsOn, Bool.and_eq_true, Bool.not_eq_true', and_assoc]

/-- A channel whose line shows no edge records nothing and publishes nothing. -/
theorem no_event_of_no_edge {levels : BitVec 4} {n : Chan} {s : State} (h : levels.getLsbD n.val = s.cap.prev.getLsbD n.val) :
    recordsRise levels n s = false ∧ publishes levels n s = false := by
  simp [recordsRise, publishes, risesOn, fallsOn, h, -BitVec.getLsbD_eq_getElem]

/-- What a tick leaves of a channel: CaptureTick sees the incremented TCNT, and SynthTick leaves the unit alone. -/
theorem tick_chan (levels : BitVec 4) (d : Draws) (s : State) (n : Chan) :
    let t := tick levels d s
    t.cap.prev.getLsbD n.val = levels.getLsbD n.val ∧
      t.cap.riseSeen.getLsbD n.val = (recordsRise levels n s || s.cap.riseSeen.getLsbD n.val) ∧
      t.cap.valid.getLsbD n.val = (publishes levels n s || s.cap.valid.getLsbD n.val) ∧
      t.cap.start[n] = (if recordsRise levels n s then s.tcnt + 1#16 else s.cap.start[n]) ∧
      t.cap.width[n] = (if publishes levels n s then s.tcnt + 1#16 - s.cap.start[n] else s.cap.width[n]) := by
  obtain ⟨-, -, -, -, -, -, -, hcap⟩ := tick_frame levels d s
  dsimp only
  rw [hcap]
  exact captureTick_chan levels { silent s with tcnt := s.tcnt + 1#16 } n

theorem tick_capEn (levels : BitVec 4) (d : Draws) (s : State) : (tick levels d s).cap.en = s.cap.en := by
  obtain ⟨-, -, -, -, -, -, -, hcap⟩ := tick_frame levels d s
  obtain ⟨-, -, -, -, -, -, -, -, hen, -⟩ := captureTick_frame levels { silent s with tcnt := s.tcnt + 1#16 }
  exact (congrArg Cap.en hcap).trans hen

/-- The synthesizer raises FRAME and LATCH alone, so it leaves the eight capture bits of IRQ_PEND. -/
theorem synthTick_irqPend_of_lt (d : Draws) (s : State) {b : Nat} (hb : b < 8) :
    (synthTick d s).irqPend.getLsbD b = s.irqPend.getLsbD b := by
  obtain ⟨-, h⟩ | ⟨-, h⟩ | ⟨-, -, -, h⟩ := synthTick_cases d s
  case inr.inl =>
    obtain ⟨active, level, onAt, offAt, hstart⟩ := frameStart_eq d s
    rw [h, hstart]
    dsimp only
    rw [frameIrqs_irqPend, decide_eq_false (by omega), decide_eq_false (by omega), Bool.and_false, Bool.or_false,
      Bool.false_or]
  all_goals rw [h]

/-- A pending bit of the capture unit is raised at a tick by the channel that owns it. -/
theorem tick_irqPend_of_lt (levels : BitVec 4) (d : Draws) (s : State) {b : Nat} (hb : b < 8) :
    (tick levels d s).irqPend.getLsbD b = true ↔
      s.irqPend.getLsbD b = true ∨ ∃ n : Chan,
        (recordsRise levels n s = true ∧ b = 4 + n.val) ∨ (publishes levels n s = true ∧ b = n.val) := by
  have hall : ∀ n : Chan, n ∈ allChans := by decide
  rw [tick, synthTick_irqPend_of_lt d _ hb, captureTick_irqPend, Bool.or_eq_true, List.any_eq_true]
  simp only [hall, true_and, Bool.or_eq_true, Bool.and_eq_true, decide_eq_true_eq]
  rfl

theorem tick_rise_pending (levels : BitVec 4) (d : Draws) (s : State) (n : Chan) :
    (tick levels d s).irqPend.getLsbD (4 + n.val) =
      (recordsRise levels n s || s.irqPend.getLsbD (4 + n.val)) := by
  rw [Bool.eq_iff_iff, tick_irqPend_of_lt levels d s (by omega), Bool.or_eq_true, or_comm]
  refine or_congr_left ⟨?_, fun h => ⟨n, .inl ⟨h, rfl⟩⟩⟩
  rintro ⟨m, ⟨h, hb⟩ | ⟨-, hb⟩⟩
  · obtain rfl : n = m := Fin.ext (by omega)
    exact h
  · omega

theorem tick_fall_pending (levels : BitVec 4) (d : Draws) (s : State) (n : Chan) :
    (tick levels d s).irqPend.getLsbD n.val = (publishes levels n s || s.irqPend.getLsbD n.val) := by
  rw [Bool.eq_iff_iff, tick_irqPend_of_lt levels d s (by omega), Bool.or_eq_true, or_comm]
  refine or_congr_left ⟨?_, fun h => ⟨n, .inr ⟨h, rfl⟩⟩⟩
  rintro ⟨m, ⟨-, hb⟩ | ⟨h, hb⟩⟩
  · omega
  · obtain rfl : n = m := Fin.ext hb
    exact h

/-- Settles O24: the channel's five elements and its two pending bits follow `recordsRise` and `publishes`. -/
theorem captureTickOnEachChannel : Obligations.CaptureTickOnEachChannel := by
  intro levels d s n
  obtain ⟨hprev, hseen, hvalid, hstart, hwidth⟩ := tick_chan levels (boundedDraws d) s n
  have hrise := tick_rise_pending levels (boundedDraws d) s n
  have hfall := tick_fall_pending levels (boundedDraws d) s n
  refine ⟨_, perform_tick levels d s, hprev, ?rise, ?noRise, ?publish, ?noPublish⟩
  case rise =>
    intro h
    rw [recordsRise_iff.mpr h] at hseen hstart hrise
    exact ⟨hstart, hseen, hrise⟩
  case noRise =>
    intro h
    rw [Bool.eq_false_iff.mpr (mt recordsRise_iff.mp h)] at hseen hstart hrise
    exact ⟨hstart, hseen, hrise⟩
  case publish =>
    intro h
    rw [publishes_iff.mpr h] at hvalid hwidth hfall
    exact ⟨hwidth, hvalid, hfall⟩
  case noPublish =>
    intro h
    rw [Bool.eq_false_iff.mpr (mt publishes_iff.mp h)] at hvalid hwidth hfall
    exact ⟨hwidth, hvalid, hfall⟩

/-- Settles O25: `tick_fence` on numbers. -/
theorem fenceCountsThePublishes : Obligations.FenceCountsThePublishes := by
  intro levels d s
  refine ⟨_, perform_tick levels d s, ?_⟩
  rw [tick_fence, BitVec.toNat_add, BitVec.toNat_ofNat, Nat.add_mod_mod]

/-- Settles O26: both events of a channel are functions of its own line and state, and so is what they write. -/
theorem captureChannelsAreIndependent : Obligations.CaptureChannelsAreIndependent := by
  intro lv1 lv2 d1 d2 s1 s2 t1 t2 n hline htcnt hen hprev hseen hvalid hstart hwidth h1 h2
  cases h1
  cases h2
  have hrecords : recordsRise lv1 n s1 = recordsRise lv2 n s2 := by
    simp only [recordsRise, risesOn, hline, hen, hprev]
  have hpublishes : publishes lv1 n s1 = publishes lv2 n s2 := by
    simp only [publishes, fallsOn, hline, hen, hprev, hseen]
  obtain ⟨hprev1, hseen1, hvalid1, hstart1, hwidth1⟩ := tick_chan lv1 (boundedDraws d1) s1 n
  obtain ⟨hprev2, hseen2, hvalid2, hstart2, hwidth2⟩ := tick_chan lv2 (boundedDraws d2) s2 n
  rw [hprev1, hprev2, hseen1, hseen2, hvalid1, hvalid2, hstart1, hstart2, hwidth1, hwidth2, hrecords, hpublishes,
    hline, htcnt, hseen, hvalid, hstart, hwidth]
  exact ⟨rfl, rfl, rfl, rfl, rfl⟩

/-! ### Runs of ticks (41_capture.md R135, R136) -/

/-- Ticks with no edge on a line count TCNT and leave the line's channel alone. -/
theorem runTicks_no_edge {s : State} {n : Chan} {l : List (BitVec 4 × Draws)}
    (h : ∀ x ∈ l, x.1.getLsbD n.val = s.cap.prev.getLsbD n.val) :
    let t := runTicks l s
    t.tcnt = s.tcnt + BitVec.ofNat 16 l.length ∧ t.cap.en = s.cap.en ∧
      t.cap.prev.getLsbD n.val = s.cap.prev.getLsbD n.val ∧
      t.cap.riseSeen.getLsbD n.val = s.cap.riseSeen.getLsbD n.val ∧
      t.cap.valid.getLsbD n.val = s.cap.valid.getLsbD n.val ∧
      t.cap.start[n] = s.cap.start[n] ∧ t.cap.width[n] = s.cap.width[n] := by
  induction l generalizing s with
  | nil => exact ⟨(BitVec.add_zero _).symm, rfl, rfl, rfl, rfl, rfl, rfl⟩
  | cons x l ih =>
    obtain ⟨hx, hl⟩ := List.forall_mem_cons.mp h
    obtain ⟨hnoRise, hnoPublish⟩ := no_event_of_no_edge hx
    obtain ⟨htcnt, -⟩ := tick_frame x.1 (boundedDraws x.2) s
    obtain ⟨hprev, hseen, hvalid, hstart, hwidth⟩ := tick_chan x.1 (boundedDraws x.2) s n
    rw [hx] at hprev
    rw [hnoRise] at hseen hstart
    rw [hnoPublish] at hvalid hwidth
    obtain ⟨ihtcnt, ihen, ihprev, ihseen, ihvalid, ihstart, ihwidth⟩ :=
      ih (s := tick x.1 (boundedDraws x.2) s) fun y hy => (hl y hy).trans hprev.symm
    refine ⟨ihtcnt.trans ?_, ihen.trans (tick_capEn _ _ _), ihprev.trans hprev, ihseen.trans hseen, ihvalid.trans hvalid,
      ihstart.trans hstart, ihwidth.trans hwidth⟩
    rw [htcnt, List.length_cons, BitVec.add_assoc, Nat.add_comm, BitVec.ofNat_add]

/-- Settles O28: three of the registers `runTicks_no_edge` speaks of. -/
theorem noEdgeFreezesTheWidth : Obligations.NoEdgeFreezesTheWidth := by
  intro s n l h
  obtain ⟨-, -, -, -, hvalid, hstart, hwidth⟩ := runTicks_no_edge h
  exact ⟨hwidth, hvalid, hstart⟩

/-- Settles O27: the first tick records the rise, the others of the pulse show no edge and count TCNT, and the last
publishes what TCNT has counted since. -/
theorem pulsePublishesItsTicks : Obligations.PulsePublishesItsTicks := by
  intro s n l last hen hlow hne hhigh hlast
  obtain ⟨first, rest, rfl⟩ := List.exists_cons_of_ne_nil hne
  obtain ⟨hfirst, hrest⟩ := List.forall_mem_cons.mp hhigh
  -- the first tick records the rise
  have hrise : recordsRise first.1 n s = true := recordsRise_iff.mpr ⟨hen, hlow, hfirst⟩
  obtain ⟨htcnt, -⟩ := tick_frame first.1 (boundedDraws first.2) s
  obtain ⟨hprev, hseen, -, hstart, -⟩ := tick_chan first.1 (boundedDraws first.2) s n
  have hen' := tick_capEn first.1 (boundedDraws first.2) s
  rw [hrise] at hseen hstart
  rw [hfirst] at hprev
  have hrun : runTicks (first :: rest ++ [last]) s =
      tick last.1 (boundedDraws last.2) (runTicks rest (tick first.1 (boundedDraws first.2) s)) := by
    simp only [runTicks, List.cons_append, List.foldl_cons, List.foldl_append, List.foldl_nil]
  rw [hrun]
  generalize tick first.1 (boundedDraws first.2) s = a at *
  -- the line stays high
  obtain ⟨htcnt', hen'', hprev', hseen', -, hstart', -⟩ :=
    runTicks_no_edge (s := a) fun x hx => (hrest x hx).trans hprev.symm
  generalize runTicks rest a = u at *
  -- the last tick publishes
  have hpub : publishes last.1 n u = true := by
    refine publishes_iff.mpr ⟨?_, ⟨hprev'.trans hprev, hlast⟩, hseen'.trans hseen⟩
    rw [hen'', hen', hen]
  obtain ⟨-, -, hvalid, -, hwidth⟩ := tick_chan last.1 (boundedDraws last.2) u n
  have hfall := tick_fall_pending last.1 (boundedDraws last.2) u n
  rw [hpub] at hvalid hwidth hfall
  refine ⟨?_, hvalid, hfall⟩
  rw [hwidth, if_pos rfl, hstart', hstart, if_pos rfl, htcnt', htcnt, List.length_cons]
  bv_omega

end Sys2Proof.Machine
end

section
/-! The PID unit: its reads, its writes and commands, and the laws of the controller step (spec 42_pid.md). -/

namespace Sys2Proof.Machine

/-! ### Reads, writes and CMD PID_CLR -/

/-- 42_pid.md R152: the fields of PID_CTRL, added up at their places. -/
theorem pidCtrlWord_eq (p : Pid) :
    pidCtrlWord p = BitVec.ofNat 16 (
      p.dShift.toNat * 2 ^ 8 + p.iShift.toNat * 2 ^ 4 + (if p.dEn then 2 else 0) + (if p.iEn then 1 else 0)) := by
  have hdEn := p.dEn.toNat_lt
  have hiEn := p.iEn.toNat_lt
  refine BitVec.eq_of_toNat_eq ?_
  simp only [pidCtrlWord, toNat_append_eq_add, BitVec.toNat_ofBool, BitVec.toNat_ofNat, ite_zero_eq_toNat_mul]
  omega

/-- Settles O13: each row decodes by its address, and each read answers its register; PID_CTRL adds its fields up, and
ELIM, EPS and PID_STAT are zero-extended. -/
theorem pidReadsReturnTheirRegisters : Obligations.PidReadsReturnTheirRegisters :=
  ⟨.of_reply (a := 0x30#8) rfl fun s => by rw [← pidCtrlWord_eq]; rfl,
    .of_reply (a := 0x31#8) rfl fun _ => rfl,
    .of_reply (a := 0x32#8) rfl fun _ => rfl,
    .of_reply (a := 0x33#8) rfl fun _ => rfl,
    .of_reply (a := 0x34#8) rfl fun s => by rw [← zext16_eq_ofNat]; rfl,
    .of_reply (a := 0x35#8) rfl fun s => by rw [← zext16_eq_ofNat]; rfl,
    .of_reply (a := 0x36#8) rfl fun _ => rfl,
    .of_reply (a := 0x37#8) rfl fun _ => rfl,
    .of_reply (a := 0x38#8) rfl fun _ => rfl,
    .of_reply (a := 0x39#8) rfl fun _ => rfl,
    .of_reply (a := 0x3A#8) rfl fun s => by rw [← zext16_eq_ofNat]; rfl⟩

/-- A field of DATA as a number: the bits from `start` on, cut at the field's width. -/
theorem extractLsb'_eq_ofNat_div {w : Nat} (start len : Nat) (v : BitVec w) :
    v.extractLsb' start len = BitVec.ofNat len (v.toNat / 2 ^ start) :=
  BitVec.eq_of_toNat_eq (by rw [BitVec.extractLsb'_toNat, BitVec.toNat_ofNat, Nat.shiftRight_eq_div_pow])

theorem getLsbD_eq_decide_div {w : Nat} (v : BitVec w) (i : Nat) :
    v.getLsbD i = decide (v.toNat / 2 ^ i % 2 = 1) :=
  Nat.testBit_eq_decide_div_mod_eq

theorem lower15_eq_ofNat (v : Reg) : lower15 v = BitVec.ofNat 15 v.toNat := by
  rw [lower15, extractLsb'_eq_ofNat_div, Nat.pow_zero, Nat.div_one]

/-- 42_pid.md R153: the four fields of PID_CTRL as numbers. -/
theorem exec_wrPidCtrl (v : Reg) (s : State) :
    exec (.wrPidCtrl v) s = .next {
      s with
      busRdata := none
      pid := {
        s.pid with
        iEn := decide (v.toNat % 2 = 1), dEn := decide (v.toNat / 2 % 2 = 1)
        iShift := BitVec.ofNat 4 (v.toNat / 2 ^ 4), dShift := BitVec.ofNat 4 (v.toNat / 2 ^ 8) } } := by
  simp only [exec, execWrPidCtrl, getLsbD_eq_decide_div, extractLsb'_eq_ofNat_div, Nat.pow_zero, Nat.div_one,
    Nat.pow_one]
  rfl

/-- Settles O30: each row decodes by its address; PID_CTRL takes its fields, ELIM and EPS the low 15 bits, and the others
all of DATA. -/
theorem pidWritesStoreTheirFields : Obligations.PidWritesStoreTheirFields := by
  refine ⟨fun v => ⟨decode_writeRow 0x30#8 v, decode_writeRow 0x31#8 v, decode_writeRow 0x32#8 v,
      decode_writeRow 0x33#8 v, decode_writeRow 0x34#8 v, decode_writeRow 0x35#8 v, decode_writeRow 0x36#8 v⟩,
    fun s v => ⟨exec_wrPidCtrl v s, rfl, rfl, rfl, ?elim, ?eps, rfl⟩⟩
  case elim =>
    rw [← lower15_eq_ofNat]
    rfl
  case eps =>
    rw [← lower15_eq_ofNat]
    rfl

/-- Settles O32. -/
theorem pidClearClearsTheResults : Obligations.PidClearClearsTheResults :=
  ⟨decode_writeRow 0x05#8 0x0011#16, fun _ => rfl⟩

/-! ### The values of a controller step, with clamps as bounds and shifts as floors (42_pid.md R150, R151) -/

/-- Between bounds in order it does not matter which one is applied first. -/
theorem clamp_eq_max_min {lo hi : Int} (h : lo ≤ hi) (v : Int) : clamp v lo hi = max lo (min v hi) := by
  unfold clamp
  omega

theorem sat16_eq (v : Int) : sat16 v = max (-32768) (min v 32767) := clamp_eq_max_min (by decide) v

theorem pidError_mem (p : Pid) : -(p.elim.toNat : Int) ≤ pidError p ∧ pidError p ≤ p.elim.toNat :=
  clamp_mem _ _ _ (by omega)

theorem pidError_eq (p : Pid) :
    pidError p = max (-(p.elim.toNat : Int)) (min (p.sp.toInt - p.pv.toInt) p.elim.toNat) :=
  clamp_eq_max_min (by omega) _

theorem pidLimit_eq (p : Pid) : pidLimit p = max 0 ⌊(p.coll.toInt : ℚ) / 2 ^ 3⌋ :=
  congrArg (max 0) (asr_eq_floor _ 3)

theorem pidAccum_eq (p : Pid) :
    pidAccum p = if |pidError p| > (p.eps.toNat : Int) then p.integ.toInt + pidError p else p.integ.toInt := by
  simp only [pidAccum, Int.abs_eq_natAbs, gt_iff_lt, Int.ofNat_lt]

/-- A clamp to `[-L, L]`, as both I and D take it. -/
theorem clamp_pidLimit_eq (p : Pid) (v : Int) :
    clamp v (-pidLimit p) (pidLimit p) = max (-pidLimit p) (min v (pidLimit p)) := by
  obtain ⟨hlim, -⟩ := pidLimit_mem p
  exact clamp_eq_max_min (by omega) v

/-- 10_state.md R42: the limit of I and D is below 4096. -/
theorem clamp_pidLimit_mem (p : Pid) (v : Int) :
    -4095 ≤ clamp v (-pidLimit p) (pidLimit p) ∧ clamp v (-pidLimit p) (pidLimit p) ≤ 4095 := by
  obtain ⟨hlim0, hlim⟩ := pidLimit_mem p
  obtain ⟨hlo, hhi⟩ := clamp_mem v (-pidLimit p) (pidLimit p) (by omega)
  omega

theorem pidIterm_eq (p : Pid) :
    pidIterm p = if p.iEn then ⌊(pidIntegral p : ℚ) / 2 ^ p.iShift.toNat⌋ else 0 := by
  rw [pidIterm, asr_eq_floor]

theorem pidDterm_eq (p : Pid) : pidDterm p = if p.dEn then ⌊(pidDelta p : ℚ) / 2 ^ p.dShift.toNat⌋ else 0 := by
  rw [pidDterm, asr_eq_floor]

theorem pidPterm_eq (p : Pid) : pidPterm p = ⌊((p.kp.toNat * pidError p : Int) : ℚ) / 2 ^ 8⌋ := asr_eq_floor _ 8

/-! ### What a step stores: the exact values, for each is in its register's range -/

theorem pidStep_integ_toInt (p : Pid) :
    (pidStep p).integ.toInt = if p.iEn then pidIntegral p else p.integ.toInt := by
  obtain ⟨hlo, hhi⟩ := clamp_pidLimit_mem p (pidAccum p)
  have hval : (wrap16 (pidIntegral p)).toInt = pidIntegral p :=
    wrap16_toInt _ (by unfold pidIntegral; omega) (by unfold pidIntegral; omega)
  rw [pidStep, apply_ite BitVec.toInt, hval]

theorem pidStep_lastErr_toInt (p : Pid) : (pidStep p).lastErr.toInt = pidError p := by
  obtain ⟨hlo, hhi⟩ := pidError_mem p
  exact wrap16_toInt _ (by omega) (by omega)

theorem pidStep_out_toInt (p : Pid) : (pidStep p).out.toInt = sat16 (pidSum p) := by
  obtain ⟨hlo, hhi⟩ := sat16_mem (pidSum p)
  exact wrap16_toInt _ hlo hhi

/-- 10_state.md R44: the places of the four flags. -/
theorem getLsbD_pidFlags (osat dsat isat esat : Bool) :
    (pidFlags osat dsat isat esat).getLsbD 0 = esat ∧ (pidFlags osat dsat isat esat).getLsbD 1 = isat ∧
      (pidFlags osat dsat isat esat).getLsbD 2 = dsat ∧ (pidFlags osat dsat isat esat).getLsbD 3 = osat := by
  revert osat dsat isat esat; decide

/-- 42_pid.md R150: each flag says that its value was clamped. -/
theorem pidStep_stat_iff (p : Pid) :
    ((pidStep p).stat.getLsbD 0 = true ↔ pidError p ≠ pidErrorRaw p) ∧
      ((pidStep p).stat.getLsbD 1 = true ↔ p.iEn = true ∧ pidIntegral p ≠ pidAccum p) ∧
      ((pidStep p).stat.getLsbD 2 = true ↔ p.dEn = true ∧ pidDelta p ≠ pidDeltaRaw p) ∧
      ((pidStep p).stat.getLsbD 3 = true ↔ sat16 (pidSum p) ≠ pidSum p) := by
  obtain ⟨hesat, hisat, hdsat, hosat⟩ := getLsbD_pidFlags (sat16 (pidSum p) != pidSum p)
    (p.dEn && pidDelta p != pidDeltaRaw p) (p.iEn && pidIntegral p != pidAccum p) (pidError p != pidErrorRaw p)
  simp only [pidStep, pidStepFlags, hesat, hisat, hdsat, hosat, Bool.and_eq_true, bne_iff_ne, ne_eq, and_self]

theorem exec_cmdPidStep (s : State) :
    exec .cmdPidStep s = .next { s with busRdata := none, pid := pidStep s.pid } := rfl

/-- Settles O31: the values of the statement are those of the model one by one, in the order of the rule. -/
theorem pidStepFollowsTheLaw : Obligations.PidStepFollowsTheLaw := by
  intro s p eRaw e lim acc inew iterm dRaw dClamped dterm sum out
  have he : pidError p = e := pidError_eq p
  have hlim : pidLimit p = lim := pidLimit_eq p
  have hacc : pidAccum p = acc := by rw [pidAccum_eq, he]
  have hinew : pidIntegral p = inew := by rw [pidIntegral, clamp_pidLimit_eq, hacc, hlim]
  have hiterm : pidIterm p = iterm := by rw [pidIterm_eq, hinew]
  have hdRaw : pidDeltaRaw p = dRaw := by rw [pidDeltaRaw, he]
  have hd : pidDelta p = dClamped := by rw [pidDelta, clamp_pidLimit_eq, hdRaw, hlim]
  have hdterm : pidDterm p = dterm := by rw [pidDterm_eq, hd]
  have hsum : pidSum p = sum := by rw [pidSum, pidPterm_eq, he, hiterm, hdterm]
  have hout : sat16 (pidSum p) = out := by rw [sat16_eq, hsum]
  obtain ⟨hesat, hisat, hdsat, hosat⟩ := pidStep_stat_iff p
  rw [he] at hesat
  rw [hinew, hacc] at hisat
  rw [hd, hdRaw] at hdsat
  rw [hout, hsum] at hosat
  exact ⟨_, _, _, _, exec_cmdPidStep s, hinew ▸ pidStep_integ_toInt p, he ▸ pidStep_lastErr_toInt p,
    hout ▸ pidStep_out_toInt p, hesat, hisat, hdsat, hosat⟩

/-! ### The two configurations (42_pid.md R173) -/

/-- With KP = 1.0 the proportional term is the error itself. -/
theorem pidPterm_of_unit_gain {p : Pid} (h : p.kp = 0x0100) : pidPterm p = pidError p := by
  rw [pidPterm, h]
  exact Int.mul_ediv_cancel_left _ (by decide)

/-- A sum in range is stored as it is, and OSAT stays 0. -/
theorem pidStep_of_sum_mem {p : Pid} (h1 : -32768 ≤ pidSum p) (h2 : pidSum p ≤ 32767) :
    (pidStep p).out.toInt = pidSum p ∧ (pidStep p).stat.getLsbD 3 = false := by
  have hsat : sat16 (pidSum p) = pidSum p := clamp_of_mem _ _ _ h1 h2
  obtain ⟨-, -, -, hosat⟩ := pidStep_stat_iff p
  refine ⟨(pidStep_out_toInt p).trans hsat, ?_⟩
  rw [← Bool.not_eq_true, hosat, not_not]
  exact hsat

/-- I and D, where enabled, are shifts of a value within the limit, and a shift keeps that range. -/
theorem shifted_clamp_mem (p : Pid) (enabled : Bool) (v : Int) (k : Nat) :
    (if enabled then asr (clamp v (-pidLimit p) (pidLimit p)) k else 0) ∈ Set.Icc (-4095 : Int) 4095 := by
  obtain ⟨hlo, hhi⟩ := clamp_pidLimit_mem p v
  split
  · exact asr_mem _ k 4095 hlo hhi (by decide)
  · decide

/-- With KP = 1.0 and an error limit of 1023 the sum stays far inside 16 bits: 1023 + 4095 + 4095. -/
theorem pidSum_mem_of_unit_gain {p : Pid} (hkp : p.kp = 0x0100) (helim : p.elim.toNat = 1023) :
    -32768 ≤ pidSum p ∧ pidSum p ≤ 32767 := by
  obtain ⟨hiLo, hiHi⟩ : pidIterm p ∈ Set.Icc (-4095) 4095 := shifted_clamp_mem p p.iEn (pidAccum p) _
  obtain ⟨hdLo, hdHi⟩ : pidDterm p ∈ Set.Icc (-4095) 4095 := shifted_clamp_mem p p.dEn (pidDeltaRaw p) _
  have herr := pidError_mem p
  rw [helim] at herr
  rw [pidSum, pidPterm_of_unit_gain hkp]
  omega

/-- Settles O33: with KP = 1.0 the sum is the error and the two terms, and neither configuration can saturate it. -/
theorem yawAndRateLaws : Obligations.YawAndRateLaws := by
  refine ⟨fun s hiEn hdEn hiShift hdShift hkp helim _ => ?yaw, fun s hiEn hdEn hkp helim => ?rate⟩
  case yaw =>
    intro e lim
    replace hiShift : s.pid.iShift.toNat = 2 := congrArg BitVec.toNat hiShift
    replace hdShift : s.pid.dShift.toNat = 4 := congrArg BitVec.toNat hdShift
    replace helim : s.pid.elim.toNat = 1023 := congrArg BitVec.toNat helim
    obtain ⟨hlo, hhi⟩ := pidSum_mem_of_unit_gain hkp helim
    obtain ⟨hout, hosat⟩ := pidStep_of_sum_mem hlo hhi
    refine ⟨_, exec_cmdPidStep s, hosat, hout.trans ?_⟩
    have he : pidError s.pid = e := by rw [pidError_eq, helim]; rfl
    have hlim : pidLimit s.pid = lim := by rw [pidLimit_eq]; norm_num [lim]
    have hd : pidDelta s.pid = max (-lim) (min (s.pid.lastErr.toInt - e) lim) := by
      rw [pidDelta, pidDeltaRaw, clamp_pidLimit_eq, he, hlim]
    have hinteg : (pidStep s.pid).integ.toInt = pidIntegral s.pid := by rw [pidStep_integ_toInt, if_pos hiEn]
    rw [pidSum, pidPterm_of_unit_gain hkp, pidIterm_eq, pidDterm_eq, if_pos hiEn, if_pos hdEn, hiShift, hdShift, he, hd,
      hinteg]
    norm_num
  case rate =>
    replace helim : s.pid.elim.toNat = 32767 := congrArg BitVec.toNat helim
    have hsum : pidSum s.pid = pidError s.pid := by
      rw [pidSum, pidPterm_of_unit_gain hkp, pidIterm, pidDterm, hiEn, hdEn]
      simp
    have herr := pidError_mem s.pid
    rw [helim] at herr
    obtain ⟨hout, -⟩ := pidStep_of_sum_mem (p := s.pid) (by omega) (by omega)
    refine ⟨_, exec_cmdPidStep s, hout.trans ?_⟩
    rw [hsum, pidError_eq, helim]
    rfl

end Sys2Proof.Machine
end

section
/-! The synthesizer's transactions: targets, reads, and what each write and command stores (spec 43_synth.md R180, R189 to
R212). -/

namespace Sys2Proof.Machine

/-! ### Rows indexed by a slot (30_encoding.md R85) -/

@[simp] theorem indexSlot_ofNat (o : Slot) : indexSlot (BitVec.ofNat 3 o.val) = some o := by
  revert o; decide

theorem legalSlot_ofNat (o : Slot) : legalSlot (BitVec.ofNat 3 o.val) = true := by
  revert o; decide

/-- The upper half of a word of a slot's row: RSV and W, five address bits, and the index. -/
theorem slotRow_eq (h : BitVec 8) (c : BitVec 5) (o : Slot) :
    BitVec.ofNat 16 (h.toNat * 256 + c.toNat * 8 + o.val) = h ++ (c ++ BitVec.ofNat 3 o.val) := by
  refine BitVec.eq_of_toNat_eq ?_
  simp only [toNat_append_eq_add, BitVec.toNat_ofNat]
  omega

/-- A read row of a slot answers its register. -/
theorem ReadsAs.of_slotRow {c : BitVec 5} {i : Instr} {value : State → Reg} (o : Slot)
    (hdecode : decodeRead (c ++ BitVec.ofNat 3 o.val) = .ok i)
    (hexec : ∀ s, exec i s = .next (reply (value s) s)) : ReadsAs (BitVec.ofNat 16 (c.toNat * 8 + o.val)) i value := by
  have hrow := slotRow_eq 0x00#8 c o
  rw [BitVec.toNat_zero, Nat.zero_mul, Nat.zero_add] at hrow
  rw [hrow]
  exact .of_reply hdecode hexec

/-! ### Reads (43_synth.md R190 to R212) -/

theorem slotNibble_toNat (o : Slot) : (slotNibble o).toNat = o.val := by
  revert o; decide

/-- 43_synth.md R202: the four slot numbers of ROUTE0, added up at their places. -/
theorem route0Word_eq (r3 r2 r1 r0 : Slot) :
    slotNibble r3 ++ slotNibble r2 ++ slotNibble r1 ++ slotNibble r0 =
      BitVec.ofNat 16 (r3.val * 2 ^ 12 + r2.val * 2 ^ 8 + r1.val * 2 ^ 4 + r0.val) := by
  refine BitVec.eq_of_toNat_eq ?_
  simp only [toNat_append_eq_add, slotNibble_toNat, BitVec.toNat_ofNat]
  omega

/-- 43_synth.md R204: bits 15:8 of ROUTE1 read 0. -/
theorem route1Word_eq (r5 r4 : Slot) :
    0#8 ++ slotNibble r5 ++ slotNibble r4 = BitVec.ofNat 16 (r5.val * 2 ^ 4 + r4.val) := by
  refine BitVec.eq_of_toNat_eq ?_
  simp only [toNat_append_eq_add, slotNibble_toNat, BitVec.toNat_ofNat]
  omega

theorem zext16_ofBool (b : Bool) : zext16 (BitVec.ofBool b) = if b then 1 else 0 := by
  cases b <;> rfl

/-- Settles O14: each row decodes by its address, and each read answers its register; the fields are zero-extended, and
the ROUTE words add their slot numbers up. -/
theorem synthReadsReturnTheirRegisters : Obligations.SynthReadsReturnTheirRegisters :=
  ⟨.of_reply (a := 0x40#8) rfl fun s => by rw [← zext16_ofBool]; rfl,
    .of_reply (a := 0x41#8) rfl fun s => by rw [← zext16_eq_ofNat]; rfl,
    .of_reply (a := 0x42#8) rfl fun s => by rw [← zext16_eq_ofNat]; rfl,
    .of_reply (a := 0x43#8) rfl fun s => by rw [← zext16_eq_ofNat]; rfl,
    .of_reply (a := 0x44#8) rfl fun _ => rfl,
    .of_reply (a := 0x45#8) rfl fun s => by rw [← zext16_eq_ofNat]; rfl,
    .of_reply (a := 0x46#8) rfl fun s => by rw [← route0Word_eq]; rfl,
    .of_reply (a := 0x47#8) rfl fun s => by rw [← route1Word_eq]; rfl,
    .of_reply (a := 0x48#8) rfl fun _ => rfl,
    .of_reply (a := 0x49#8) rfl fun s => by rw [← zext16_eq_ofNat]; rfl,
    .of_reply (a := 0x4A#8) rfl fun s => by rw [← zext16_eq_ofNat]; rfl⟩

/-- Settles O15: the index bits of a slot's row name the slot. -/
theorem synthIndexedReadsReturnTheirRegisters : Obligations.SynthIndexedReadsReturnTheirRegisters := fun o => ⟨
  .of_slotRow (c := 0x0A#5) o ((decodeRead_synCmd _).trans (if_pos (legalSlot_ofNat o))) fun s => by
    simp only [exec, execRdSynCmd, indexSlot_ofNat],
  .of_slotRow (c := 0x0B#5) o ((decodeRead_synAct _).trans (if_pos (legalSlot_ofNat o))) fun s => by
    simp only [exec, execRdSynAct, indexSlot_ofNat]⟩

/-! ### The writes of WIDE, SLOW, LOW and DIV (43_synth.md R193 to R199) -/

theorem lowBits_eq_ofNat (w : Nat) (v : Reg) : lowBits w v = BitVec.ofNat w v.toNat := by
  rw [lowBits, extractLsb'_eq_ofNat_div, Nat.pow_zero, Nat.div_one]

theorem warlLow_eq_ite (v : Reg) : warlLow v = if v.toNat ≤ 49535 then v else 49535 := by
  refine BitVec.eq_of_toNat_eq ?_
  rw [warlLow_toNat]
  split
  case isTrue h => exact Nat.min_eq_left h
  case isFalse h => exact Nat.min_eq_right (Nat.le_of_not_le h)

theorem warlDiv_eq_ite (v : Reg) : warlDiv v = if v.toNat % 256 = 0 then 1 else BitVec.ofNat 8 v.toNat := by
  have hlow : v.extractLsb' 0 8 = BitVec.ofNat 8 v.toNat := lowBits_eq_ofNat 8 v
  have hzero : BitVec.ofNat 8 v.toNat = 0#8 ↔ v.toNat % 256 = 0 := by
    rw [BitVec.toNat_eq, BitVec.toNat_ofNat, BitVec.toNat_zero]
  simp only [warlDiv, hlow, hzero]
  rfl

/-- Settles O35: each row decodes by its address, and each write stores its operand form. -/
theorem synthWritesStoreTheirFields : Obligations.SynthWritesStoreTheirFields := by
  refine ⟨fun v => ⟨decode_writeRow 0x42#8 v, decode_writeRow 0x43#8 v, decode_writeRow 0x44#8 v,
    decode_writeRow 0x45#8 v⟩, fun s v => ?_⟩
  rw [← lowBits_eq_ofNat, ← warlLow_eq_ite, ← warlDiv_eq_ite]
  exact ⟨rfl, rfl, rfl, rfl⟩

/-! ### The writes of ROUTE (43_synth.md R201, R203) -/

theorem toNat_nibble (v : Reg) (k : Nat) : (v.extractLsb' k 4).toNat = v.toNat / 2 ^ k % 16 := by
  rw [BitVec.extractLsb'_toNat, Nat.shiftRight_eq_div_pow]

theorem legalRoute0_iff (v : Reg) : legalRoute0 v = true ↔ ∀ j < 4, v.toNat / 16 ^ j % 16 ≤ 5 := by
  simp only [legalRoute0, Bool.and_eq_true, legalNibble_extractLsb', Nat.forall_lt_succ_right, Nat.not_lt_zero,
    IsEmpty.forall_iff, implies_true, true_and]
  rfl

theorem legalRoute1_iff (v : Reg) : legalRoute1 v = true ↔ ∀ j < 2, v.toNat / 16 ^ j % 16 ≤ 5 := by
  simp only [legalRoute1, Bool.and_eq_true, legalNibble_extractLsb', Nat.forall_lt_succ_right, Nat.not_lt_zero,
    IsEmpty.forall_iff, implies_true, true_and]
  rfl

/-- A legal nibble of DATA names the slot of its number. -/
theorem nibbleSlot_of_le {v : Reg} {k : Nat} (h : v.toNat / 2 ^ k % 16 ≤ 5) :
    ∃ o, nibbleSlot (v.extractLsb' k 4) = some o ∧ o.val = v.toNat / 2 ^ k % 16 := by
  obtain ⟨o, ho⟩ := nibbleSlot_of_legal ((legalNibble_extractLsb' v k).mpr h)
  exact ⟨o, ho, by rw [← (nibbleSlot_eq_some _ o).mp ho, toNat_nibble]⟩

/-- 43_synth.md R201: a legal write of ROUTE0 sets the routes of outputs 0 to 3. -/
theorem exec_wrSynRoute0_of_legal {v : Reg} (h : ∀ j < 4, v.toNat / 16 ^ j % 16 ≤ 5) (s : State) :
    ∃ r0 r1 r2 r3 : Slot,
      exec (.wrSynRoute0 v) s = .next {
          s with
          busRdata := none
          syn := { s.syn with route := (((s.syn.route.set 0 r0).set 1 r1).set 2 r2).set 3 r3 } } ∧
        r0.val = v.toNat / 16 ^ 0 % 16 ∧ r1.val = v.toNat / 16 ^ 1 % 16 ∧ r2.val = v.toNat / 16 ^ 2 % 16 ∧
        r3.val = v.toNat / 16 ^ 3 % 16 := by
  obtain ⟨r0, h0, hv0⟩ := nibbleSlot_of_le (k := 0) (h 0 (by decide))
  obtain ⟨r1, h1, hv1⟩ := nibbleSlot_of_le (k := 4) (h 1 (by decide))
  obtain ⟨r2, h2, hv2⟩ := nibbleSlot_of_le (k := 8) (h 2 (by decide))
  obtain ⟨r3, h3, hv3⟩ := nibbleSlot_of_le (k := 12) (h 3 (by decide))
  refine ⟨r0, r1, r2, r3, ?_, hv0, hv1, hv2, hv3⟩
  simp only [exec, execWrSynRoute0, h0, h1, h2, h3]
  rfl

/-- 43_synth.md R203: a legal write of ROUTE1 sets the routes of outputs 4 and 5. -/
theorem exec_wrSynRoute1_of_legal {v : Reg} (h : ∀ j < 2, v.toNat / 16 ^ j % 16 ≤ 5) (s : State) :
    ∃ r4 r5 : Slot,
      exec (.wrSynRoute1 v) s = .next {
          s with busRdata := none, syn := { s.syn with route := (s.syn.route.set 4 r4).set 5 r5 } } ∧
        r4.val = v.toNat / 16 ^ 0 % 16 ∧ r5.val = v.toNat / 16 ^ 1 % 16 := by
  obtain ⟨r4, h4, hv4⟩ := nibbleSlot_of_le (k := 0) (h 0 (by decide))
  obtain ⟨r5, h5, hv5⟩ := nibbleSlot_of_le (k := 4) (h 1 (by decide))
  refine ⟨r4, r5, ?_, hv4, hv5⟩
  simp only [exec, execWrSynRoute1, h4, h5]
  rfl

/-- 60_exceptions.md R231: a refused word sets BUSERR and leaves the synthesizer alone. -/
theorem perform_refused_word {w : BusWord} {e : Illegal} (h : decode w = .error e) (s : State) :
    ∃ t, perform (.host w) s = .next t ∧ t.syn = s.syn ∧ t.busErr = true :=
  ⟨_, perform_host_error w e s h, illegalTransaction_syn w s, illegalTransaction_busErr w s⟩

/-- Settles O36: a legal word stores its nibbles as slots, any other one is refused. -/
theorem routeWritesStoreSlotNumbers : Obligations.RouteWritesStoreSlotNumbers := by
  intro s v
  refine ⟨fun h => ?legal0, fun h => ?legal1, fun ⟨j, hj, hbad⟩ => ?bad0, fun ⟨j, hj, hbad⟩ => ?bad1⟩
  case legal0 =>
    obtain ⟨r0, r1, r2, r3, hexec, h0, h1, h2, h3⟩ := exec_wrSynRoute0_of_legal h s
    exact ⟨(decode_writeRow 0x46#8 v).trans (if_pos ((legalRoute0_iff v).mpr h)), _, hexec, by simp [h0, h1, h2, h3]⟩
  case legal1 =>
    obtain ⟨r4, r5, hexec, h4, h5⟩ := exec_wrSynRoute1_of_legal h s
    exact ⟨(decode_writeRow 0x47#8 v).trans (if_pos ((legalRoute1_iff v).mpr h)), _, hexec, by simp [h4, h5]⟩
  case bad0 =>
    have hillegal : ¬ legalRoute0 v = true := fun h => Nat.not_le.mpr hbad ((legalRoute0_iff v).mp h j hj)
    exact perform_refused_word ((decode_writeRow 0x46#8 v).trans (if_neg hillegal)) s
  case bad1 =>
    have hillegal : ¬ legalRoute1 v = true := fun h => Nat.not_le.mpr hbad ((legalRoute1_iff v).mp h j hj)
    exact perform_refused_word ((decode_writeRow 0x47#8 v).trans (if_neg hillegal)) s

/-! ### The staged commands (43_synth.md R208, R210, R211) -/

theorem decode_wrSynCmd (k : Slot) (v : Reg) :
    decode (BitVec.ofNat 16 (0x8050 + k.val) ++ v) = .ok (.wrSynCmd (BitVec.ofNat 3 k.val) v) :=
  calc decode (BitVec.ofNat 16 (0x8050 + k.val) ++ v)
    _ = decode (0x80#8 ++ (0x0A#5 ++ BitVec.ofNat 3 k.val) ++ v) := by rw [← slotRow_eq]; rfl
    _ = decodeWrite (0x0A#5 ++ BitVec.ofNat 3 k.val) v := decode_writeRow _ v
    _ = .ok (.wrSynCmd (BitVec.ofNat 3 k.val) v) := (decodeWrite_synCmd _ v).trans (if_pos (legalSlot_ofNat k))

theorem exec_wrSynCmd (k : Slot) (v : Reg) (s : State) :
    exec (.wrSynCmd (BitVec.ofNat 3 k.val) v) s =
      .next { s with busRdata := none, syn := { s.syn with cmd := s.syn.cmd.set k v } } := by
  simp only [exec, execWrSynCmd, indexSlot_ofNat]
  rfl

/-- Settles O37: the write sets one entry of CMD. -/
theorem commandWriteStagesItsSlot : Obligations.CommandWriteStagesItsSlot :=
  fun k v => ⟨decode_wrSynCmd k v, fun s => ⟨s.syn.cmd.set k v, exec_wrSynCmd k v s, Vector.getElem_set_self k.isLt,
    fun j hj => Vector.getElem_set_ne k.isLt j.isLt fun h => hj (Fin.ext h.symm)⟩⟩

/-- Settles O38. -/
theorem commitAndCancelSetPending : Obligations.CommitAndCancelSetPending :=
  ⟨decode_writeRow 0x05#8 0x0020#16, decode_writeRow 0x05#8 0x0021#16, fun _ => ⟨rfl, rfl⟩⟩

/-! ### Enabling the sequencer and the outputs (43_synth.md R189, R191) -/

/-- Settles O39, by the value held and the value written. -/
theorem sequencerEnableWrite : Obligations.SequencerEnableWrite := by
  refine ⟨decode_writeRow 0x40#8, fun s v => ⟨fun hoff hon => ?enable, fun hon hoff => ?disable, fun hkeep => ?keep⟩⟩
  case enable =>
    simp only [exec, execWrSynCtrl, hoff, hon]
    rfl
  case disable =>
    simp only [exec, execWrSynCtrl, hoff, hon]
    rfl
  case keep =>
    simp only [exec, execWrSynCtrl, ← hkeep, Bool.not_and_self, Bool.and_not_self]
    rfl

/-- Settles O40: the new enables mask LEVEL and ACTIVE. -/
theorem outputEnableWrite : Obligations.OutputEnableWrite := by
  refine ⟨decode_writeRow 0x41#8, fun s v =>
    ⟨lowBits 6 v, s.syn.level &&& lowBits 6 v, s.syn.active &&& lowBits 6 v, rfl, fun o => ?_⟩⟩
  rw [BitVec.getLsbD_and, BitVec.getLsbD_and, getLsbD_lowBits_of_lt o.isLt]
  refine ⟨rfl, fun hoff => ?_, fun hon => ?_⟩
  · rw [hoff]
    exact ⟨Bool.and_false _, Bool.and_false _⟩
  · rw [hon]
    exact ⟨Bool.and_true _, Bool.and_true _⟩

/-! ### Targets (43_synth.md R180) -/

/-- Settles O41, by the place of the command below, within or above the clamp. -/
theorem targetIsClampedBiasedScaled : Obligations.TargetIsClampedBiasedScaled := by
  intro c w top
  have htop : 0 ≤ top := by cases w <;> decide
  have htarget : pulseTarget c w = (clamp c.toInt 0 top + 1000) * 8 := rfl
  refine ⟨fun hneg => ?below, fun hlo hhi => ?within, fun habove => ?above, pulseTarget_mem c w⟩
  case below =>
    rw [htarget, clamp_of_le _ _ _ hneg.le htop]
    rfl
  case within =>
    rw [htarget, clamp_of_mem _ _ _ hlo hhi]
    omega
  case above =>
    rw [htarget, clamp_of_ge _ _ _ habove.le]
    omega

end Sys2Proof.Machine
end

section
/-! A tick of the synthesizer: the frame it starts, or the levels it moves inside one (spec 43_synth.md R181 to R187). -/

namespace Sys2Proof.Machine

/-! ### What SynthTick is given (40_global.md R100) -/

/-- The state a tick hands to SynthTick: TCNT has counted, and the capture unit has sampled its lines. -/
def State.sampled (s : State) (levels : BitVec 4) : State := captureTick levels { silent s with tcnt := s.tcnt + 1#16 }

theorem tick_eq_synthTick_sampled (levels : BitVec 4) (d : Draws) (s : State) :
    tick levels d s = synthTick d (s.sampled levels) := rfl

@[simp] theorem sampled_tcnt (s : State) (levels : BitVec 4) : (s.sampled levels).tcnt = s.tcnt + 1 :=
  (captureTick_frame levels _).1

@[simp] theorem sampled_syn (s : State) (levels : BitVec 4) : (s.sampled levels).syn = s.syn := by
  obtain ⟨-, -, -, -, hsyn, -⟩ := captureTick_frame levels { silent s with tcnt := s.tcnt + 1#16 }
  exact hsyn

/-- The capture unit raises its own eight bits alone (60_exceptions.md R233). -/
theorem sampled_irqPend {b : Nat} (hb : 8 ≤ b) (s : State) (levels : BitVec 4) :
    (s.sampled levels).irqPend.getLsbD b = s.irqPend.getLsbD b := by
  have hnone (n : Chan) : b ≠ 4 + n.val ∧ b ≠ n.val := by omega
  rw [State.sampled, captureTick_irqPend]
  simp [hnone]

theorem elapsed_sampled (s : State) (levels : BitVec 4) :
    elapsed (s.sampled levels) = (s.tcnt + 1 - s.syn.fstart).toNat := by
  rw [elapsed, sampled_tcnt, sampled_syn]

/-! ### The three branches of SynthTick (43_synth.md R182, R187) -/

theorem synthTick_of_disabled {s : State} (d : Draws) (hen : s.syn.en = false) : synthTick d s = s :=
  if_neg (Bool.eq_false_iff.mp hen)

theorem synthTick_of_due {s : State} (d : Draws) (hen : s.syn.en = true)
    (hdue : s.syn.startReq = true ∨ frameLen s.syn ≤ elapsed s) : synthTick d s = frameStart d s := by
  have hstart : (s.syn.startReq || decide (frameLen s.syn ≤ elapsed s)) = true := by simpa using hdue
  rw [synthTick, if_pos hen, if_pos hstart]

theorem synthTick_of_inside {s : State} (d : Draws) (hen : s.syn.en = true) (hreq : s.syn.startReq = false)
    (hinside : elapsed s < frameLen s.syn) :
    synthTick d s = { s with syn := { s.syn with level := runOutputs (elapsed s) s.syn } } := by
  have hstart : ¬ (s.syn.startReq || decide (frameLen s.syn ≤ elapsed s)) = true := by simp [hreq, hinside]
  rw [synthTick, if_pos hen, if_neg hstart]

/-- The tick that starts a frame. -/
theorem tick_of_due {s : State} (levels : BitVec 4) (d : Draws) (hen : s.syn.en = true)
    (hdue : s.syn.startReq = true ∨ frameLen s.syn ≤ (s.tcnt + 1 - s.syn.fstart).toNat) :
    tick levels d s = frameStart d (s.sampled levels) :=
  synthTick_of_due (s := s.sampled levels) d (by rwa [sampled_syn]) (by rwa [elapsed_sampled, sampled_syn])

/-- A tick inside a frame. -/
theorem tick_of_inside {s : State} (levels : BitVec 4) (d : Draws) (hen : s.syn.en = true)
    (hreq : s.syn.startReq = false) (hinside : (s.tcnt + 1 - s.syn.fstart).toNat < frameLen s.syn) :
    tick levels d s = {
      s.sampled levels with
      syn := { s.syn with level := runOutputs (s.tcnt + 1 - s.syn.fstart).toNat s.syn } } := by
  have h := synthTick_of_inside (s := s.sampled levels) d (by rwa [sampled_syn]) (by rwa [sampled_syn])
    (by rwa [elapsed_sampled, sampled_syn])
  rwa [elapsed_sampled, sampled_syn] at h

/-! ### What a frame start leaves (43_synth.md R183) -/

theorem nextPhase_toNat (first : Bool) (y : Syn) :
    (nextPhase first y).toNat =
      if first = true ∨ y.div.toNat ≤ y.divph.toNat + 1 then 0 else y.divph.toNat + 1 := by
  unfold nextPhase
  cases first with
  | true => simp
  | false =>
    by_cases hwrap : y.div.toNat ≤ y.divph.toNat + 1
    · simp [hwrap]
    · have hdiv := y.div.isLt
      simp only [hwrap, Bool.false_eq_true, or_self, if_false, BitVec.toNat_add,
        BitVec.toNat_ofNat]
      exact Nat.mod_eq_of_lt (by omega)

/-- 43_synth.md R186: a phase below DIV counts modulo DIV. -/
theorem nextPhase_toNat_of_lt {y : Syn} (h : y.divph.toNat < y.div.toNat) :
    (nextPhase false y).toNat = (y.divph.toNat + 1) % y.div.toNat := by
  rw [nextPhase_toNat]
  by_cases hwrap : y.div.toNat ≤ y.divph.toNat + 1
  · have hlast : y.divph.toNat + 1 = y.div.toNat := Nat.le_antisymm h hwrap
    rw [if_pos (.inr hwrap), hlast, Nat.mod_self]
  · rw [if_neg (by simpa using hwrap), Nat.mod_eq_of_lt (Nat.lt_of_not_le hwrap)]

theorem frameStart_irqPend (d : Draws) (s : State) (b : Nat) :
    (frameStart d s).irqPend.getLsbD b =
      (decide (b = 8) || (s.syn.pend && decide (b = 9)) || s.irqPend.getLsbD b) :=
  frameIrqs_irqPend s.syn.pend s b

theorem frameStart_irqPend_frame (d : Draws) (s : State) : (frameStart d s).irqPend.getLsbD 8 = true := by
  rw [frameStart_irqPend]
  rfl

/-- 43_synth.md R180, R183: a target on numbers, latched or kept. -/
theorem frameStart_act_toNat (d : Draws) (s : State) (o : Slot) :
    ((frameStart d s).syn.act[o].toNat : Int) =
      if s.syn.pend = true then pulseTarget s.syn.cmd[s.syn.route[o]] (s.syn.wide.getLsbD o.val)
      else s.syn.act[o].toNat := by
  obtain ⟨hact, -⟩ := frameStart_latch d s
  rw [hact]
  split
  · rw [latchedTargets_getElem, wrap16_pulseTarget]
  · rfl

/-- An output gets a pulse if it is enabled, and not a slow one on a skipped frame (43_synth.md R186). -/
theorem pulsesNow_frameStart_iff (d : Draws) (s : State) (o : Slot) :
    pulsesNow (frameStart d s).syn o = true ↔
      s.syn.outen.getLsbD o.val = true ∧
        (s.syn.slow.getLsbD o.val = false ∨ (frameStart d s).syn.divph = 0) := by
  obtain ⟨active, level, onAt, offAt, h⟩ := frameStart_eq d s
  rw [h]
  simp only [pulsesNow, Bool.and_eq_true, Bool.or_eq_true, Bool.not_eq_true', beq_iff_eq]
  rfl

theorem drawOn_boundedDraws (d : Draws) (o : Slot) :
    drawOn (boundedDraws d) o = min (if o = 4 then d.on4 else d.on5) Config.jitterTicks := by
  unfold drawOn boundedDraws
  split <;> rfl

theorem drawOff_boundedDraws (d : Draws) (o : Slot) :
    drawOff (boundedDraws d) o = min (if o = 4 then d.off4 else d.off5) Config.jitterTicks := by
  unfold drawOff boundedDraws
  split <;> rfl

/-- An output that gets a pulse: a compare output goes high at once, a polled one after its delay (43_synth.md R184,
R185). -/
theorem frameStart_pulse {d : Draws} {s : State} {o : Slot} (h : pulsesNow (frameStart d s).syn o = true) :
    let y := (frameStart d s).syn
    y.active.getLsbD o.val = true ∧
      (o.val ≤ 3 → y.onAt[o] = 0 ∧ y.offAt[o] = y.act[o].toNat ∧ y.level.getLsbD o.val = true) ∧
      (3 < o.val → y.onAt[o] = drawOn d o ∧ y.offAt[o] = y.act[o].toNat + drawOff d o ∧
        y.level.getLsbD o.val = (s.syn.level.getLsbD o.val || decide (drawOn d o = 0))) := by
  obtain ⟨hactive, honAt, hoffAt, hlevel⟩ := frameStart_output d s o
  rw [h] at hactive
  rw [if_pos h] at honAt hoffAt
  rw [h, Bool.true_and] at hlevel
  refine ⟨hactive, fun hcompare => ?_, fun hpolled => ?_⟩
  · rw [if_pos hcompare] at honAt hoffAt
    rw [decide_eq_true (.inl hcompare), Bool.or_true] at hlevel
    exact ⟨honAt, hoffAt, hlevel⟩
  · rw [if_neg (Nat.not_le.mpr hpolled)] at honAt hoffAt
    simp only [Nat.not_le.mpr hpolled, false_or] at hlevel
    exact ⟨honAt, hoffAt, hlevel⟩

/-- An output that gets no pulse is idle and holds what it has (43_synth.md R186, R187). -/
theorem frameStart_held {d : Draws} {s : State} {o : Slot} (h : ¬ pulsesNow (frameStart d s).syn o = true) :
    let y := (frameStart d s).syn
    y.active.getLsbD o.val = false ∧ y.onAt[o] = s.syn.onAt[o] ∧ y.offAt[o] = s.syn.offAt[o] ∧
      y.level.getLsbD o.val = s.syn.level.getLsbD o.val := by
  obtain ⟨hactive, honAt, hoffAt, hlevel⟩ := frameStart_output d s o
  have hidle := Bool.eq_false_of_not_eq_true h
  rw [if_neg h] at honAt hoffAt
  rw [hidle, Bool.false_and, Bool.or_false] at hlevel
  exact ⟨hactive.trans hidle, honAt, hoffAt, hlevel⟩

/-- Settles O43: the frame starts on the sampled state, which has the synthesizer of `s` and the incremented TCNT. -/
theorem frameStartTick : Obligations.FrameStartTick := by
  intro levels d s hen hdue
  refine ⟨_, perform_tick levels d s, ?_⟩
  rw [tick_of_due levels (boundedDraws d) hen hdue]
  have hsyn := sampled_syn s levels
  have htcnt := sampled_tcnt s levels
  have hirq9 := sampled_irqPend (b := 9) (by decide) s levels
  have hirq10 := sampled_irqPend (b := 10) (by decide) s levels
  generalize s.sampled levels = u at *
  obtain ⟨hreq, hfstart, -, hphase⟩ := frameStart_registers (boundedDraws d) u
  obtain ⟨-, hpend, hlatch⟩ := frameStart_latch (boundedDraws d) u
  refine ⟨hreq, hfstart.trans htcnt, ?phase, hpend, ?frame, ?latch, ?err, fun o => ⟨?target, ?output⟩⟩
  case phase => rw [hphase, nextPhase_toNat, hsyn]
  case frame => exact frameStart_irqPend_frame _ u
  case latch => rw [hlatch, hsyn, hirq9]
  case err =>
    rw [frameStart_irqPend, hirq10]
    simp
  case target => simpa only [hsyn] using frameStart_act_toNat (boundedDraws d) u o
  case output =>
    intro pulses don doff
    have hpulses : pulsesNow (frameStart (boundedDraws d) u).syn o = true ↔ pulses := by
      rw [pulsesNow_frameStart_iff, hsyn]
    have hdon : drawOn (boundedDraws d) o = don := drawOn_boundedDraws d o
    have hdoff : drawOff (boundedDraws d) o = doff := drawOff_boundedDraws d o
    rw [← hpulses, ← hdon, ← hdoff, ← hsyn]
    exact ⟨frameStart_pulse, frameStart_held⟩

/-! ### A tick that starts no frame (43_synth.md R182, R187) -/

/-- Settles O44: a disabled sequencer leaves the sampled state as it is, and inside a frame `runOutputs` moves the
levels. -/
theorem tickInsideAFrame : Obligations.TickInsideAFrame := by
  intro levels d s
  refine ⟨fun hen => ⟨_, perform_tick levels d s, ?disabled⟩, fun hen hreq hinside =>
    ⟨_, runOutputs (s.tcnt + 1 - s.syn.fstart).toNat s.syn, perform_tick levels d s, ?inside⟩⟩
  case disabled =>
    rw [tick_eq_synthTick_sampled, synthTick_of_disabled _ (by rwa [sampled_syn])]
    exact ⟨sampled_syn s levels, fun b hb => sampled_irqPend hb s levels⟩
  case inside =>
    rw [tick_of_inside levels _ hen hreq hinside]
    refine ⟨rfl, fun b hb => sampled_irqPend hb s levels, fun o => ?_⟩
    rw [runOutputs_getLsbD]
    cases s.syn.active.getLsbD o.val with
    | true => simp only [true_and, if_true]
    | false => simp only [Bool.false_eq_true, false_and, if_false]

/-- Settles O45: the pulse of a slow output follows DIVPH at a frame start, and an idle output is not moved inside a
frame. -/
theorem slowOutputIsHeldOnSkippedFrames : Obligations.SlowOutputIsHeldOnSkippedFrames := by
  intro levels d s o hen houten hslow
  refine ⟨_, perform_tick levels d s, fun hreq => ?first, fun hreq hdue hphase => ?later,
    fun hidle hreq hinside => ?inside⟩
  case inside =>
    rw [tick_of_inside levels _ hen hreq hinside]
    exact ⟨hidle, runOutputs_of_inactive hidle⟩
  all_goals
    have hsyn := sampled_syn s levels
    have hpulses := pulsesNow_frameStart_iff (boundedDraws d) (s.sampled levels) o
    obtain ⟨-, -, -, hnext⟩ := frameStart_registers (boundedDraws d) (s.sampled levels)
    rw [hsyn] at hpulses hnext
    simp only [houten, hslow, true_and, Bool.true_eq_false, false_or] at hpulses
  case first =>
    rw [tick_of_due levels _ hen (.inl hreq)]
    have hzero : (frameStart (boundedDraws d) (s.sampled levels)).syn.divph = 0 := by rw [hnext, hreq]; rfl
    exact ⟨hzero, (frameStart_pulse (hpulses.mpr hzero)).1⟩
  case later =>
    rw [tick_of_due levels _ hen (.inr hdue)]
    refine ⟨?_, fun hzero => (frameStart_pulse (hpulses.mpr hzero)).1, fun hne => ?_⟩
    · rw [hnext, hreq, nextPhase_toNat_of_lt hphase]
    · obtain ⟨hactive, -, -, hlevel⟩ := frameStart_held (mt hpulses.mp hne)
      exact ⟨hactive, by rw [hlevel, hsyn]⟩

end Sys2Proof.Machine
end

section
/-! Runs of ticks over a frame: its length, and the pulse of each kind of output (spec 43_synth.md R181 to R185,
70_reset_and_hazards.md R281, R283). -/

namespace Sys2Proof.Machine

/-! ### Ticks inside a frame -/

/-- The sequencer runs a frame, `n` ticks old, and no other one is requested; LOW is legal (10_state.md R47). -/
structure State.InFrame (s : State) (n : Nat) : Prop where
  en : s.syn.en = true
  noRequest : s.syn.startReq = false
  age : elapsed s = n
  low : s.syn.low.toNat ≤ 49535

/-- A frame fits the counter, so a tick of it adds one to the elapsed ticks (43_synth.md R181). -/
theorem State.InFrame.elapsed_next {s : State} {n : Nat} (h : s.InFrame n) (hn : n < frameLen s.syn) :
    (s.tcnt + 1 - s.syn.fstart).toNat = n + 1 := by
  obtain ⟨-, -, rfl, hlow⟩ := h
  unfold frameLen elapsed at *
  bv_omega

/-- A tick before the last of the frame ages it and changes LEVEL alone (43_synth.md R182). -/
theorem State.InFrame.after_tick {s : State} {n : Nat} (h : s.InFrame n) (hn : n + 1 < frameLen s.syn)
    (levels : BitVec 4) (d : Draws) :
    (tick levels d s).InFrame (n + 1) ∧
      (tick levels d s).syn = { s.syn with level := runOutputs (n + 1) s.syn } := by
  have hnext := h.elapsed_next (Nat.lt_of_succ_lt hn)
  have htick := tick_of_inside levels d h.en h.noRequest (by rwa [hnext])
  rw [hnext] at htick
  rw [htick]
  refine ⟨⟨h.en, h.noRequest, ?_, h.low⟩, rfl⟩
  rw [← hnext]
  exact congrArg (fun c : Reg => (c - s.syn.fstart).toNat) (sampled_tcnt s levels)

theorem runTicks_append_singleton (l : List (BitVec 4 × Draws)) (x : BitVec 4 × Draws) (s : State) :
    runTicks (l ++ [x]) s = tick x.1 (boundedDraws x.2) (runTicks l s) := by
  simp only [runTicks, List.foldl_append, List.foldl_cons, List.foldl_nil]

/-- Ticks short of the frame's length leave it running, and of the synthesizer change LEVEL alone. -/
theorem State.InFrame.after_ticks {s : State} (h : s.InFrame 0) {l : List (BitVec 4 × Draws)}
    (hl : l.length < frameLen s.syn) :
    (runTicks l s).InFrame l.length ∧ ∃ level, (runTicks l s).syn = { s.syn with level := level } := by
  induction l using List.reverseRecOn with
  | nil => exact ⟨h, s.syn.level, rfl⟩
  | append_singleton l x ih =>
    rw [List.length_append, List.length_singleton] at hl ⊢
    obtain ⟨hin, level, hsyn⟩ := ih (Nat.lt_of_succ_lt hl)
    have hlen : frameLen (runTicks l s).syn = frameLen s.syn := by rw [hsyn]; rfl
    obtain ⟨hin', hsyn'⟩ := hin.after_tick (by rwa [hlen]) x.1 (boundedDraws x.2)
    rw [runTicks_append_singleton]
    refine ⟨hin', runOutputs (l.length + 1) (runTicks l s).syn, ?_⟩
    rw [hsyn', hsyn]

/-- The tick that completes the frame's length starts the next one (43_synth.md R182, R183). -/
theorem State.InFrame.last_tick {s : State} {n : Nat} (h : s.InFrame n) (hn : n + 1 = frameLen s.syn)
    (levels : BitVec 4) (d : Draws) :
    (tick levels d s).syn.fstart = s.syn.fstart + BitVec.ofNat 16 (frameLen s.syn) ∧
      elapsed (tick levels d s) = 0 ∧ (tick levels d s).irqPend.getLsbD 8 = true := by
  have hnext := h.elapsed_next (hn ▸ Nat.lt_succ_self n)
  rw [hn] at hnext
  rw [tick_of_due levels d h.en (.inr hnext.ge)]
  obtain ⟨-, hfstart, -⟩ := frameStart_registers d (s.sampled levels)
  refine ⟨?_, elapsed_frameStart d _, frameStart_irqPend_frame d _⟩
  rw [hfstart, sampled_tcnt, ← hnext, BitVec.ofNat_toNat, BitVec.setWidth_eq, add_sub_cancel]

/-- Settles O46: the last of FRAME_LEN ticks starts a frame, and none before. -/
theorem framesRepeatEveryFrameLength : Obligations.FramesRepeatEveryFrameLength := by
  intro s l hen hreq helapsed hlow
  have hin : s.InFrame 0 := ⟨hen, hreq, helapsed, hlow⟩
  refine ⟨fun hlt => ?before, fun heq => ?last⟩
  case before =>
    obtain ⟨⟨-, -, hage, -⟩, level, hsyn⟩ := hin.after_ticks hlt
    exact ⟨by rw [hsyn], hage⟩
  case last =>
    obtain rfl | ⟨l, x, rfl⟩ := List.eq_nil_or_concat' l
    · rw [List.length_nil] at heq
      omega
    rw [List.length_append, List.length_singleton] at heq
    obtain ⟨hin', level, hsyn⟩ := hin.after_ticks (l := l) (Nat.lt_of_succ_le heq.le)
    have hstart := hin'.last_tick (by rw [hsyn]; exact heq) x.1 (boundedDraws x.2)
    rw [← runTicks_append_singleton, hsyn] at hstart
    exact hstart

/-! ### Pulses (43_synth.md R184, R185) -/

theorem runTicks_inv {s : State} (h : s.Inv) (l : List (BitVec 4 × Draws)) : (runTicks l s).Inv := by
  induction l using List.reverseRecOn with
  | nil => exact h
  | append_singleton l x ih =>
    rw [runTicks_append_singleton]
    exact tick_inv x.1 x.2 ih

theorem State.Inv.inFrame {s : State} (h : s.Inv) (hen : s.syn.en = true) (hreq : s.syn.startReq = false) :
    s.InFrame (elapsed s) := by
  obtain ⟨⟨hlow, -⟩, -⟩ := h
  exact ⟨hen, hreq, rfl, hlow⟩

theorem State.Inv.transitionsLegal {s : State} (h : s.Inv) : s.TransitionsLegal := by
  obtain ⟨-, -, -, -, htransitions, -⟩ := h
  exact htransitions

theorem State.Inv.pulsesTimed {s : State} (h : s.Inv) : s.PulsesTimed := by
  obtain ⟨-, -, -, -, -, hpulses⟩ := h
  exact hpulses

/-- From its turn-on tick on, an active output is high exactly before its turn-off tick. -/
theorem runTicks_level_of_turnOn_le {s : State} (hs : s.Inv) (hin : s.InFrame 0) {l : List (BitVec 4 × Draws)}
    (hl : l.length < frameLen s.syn) {o : Slot} (hactive : s.syn.active.getLsbD o.val = true)
    (hon : s.syn.onAt[o] ≤ l.length) :
    (runTicks l s).syn.level.getLsbD o.val = decide (l.length < s.syn.offAt[o]) := by
  obtain ⟨⟨-, -, hage, -⟩, level, hsyn⟩ := hin.after_ticks hl
  have hpulse := (runTicks_inv hs l).pulsesTimed o
  rw [hage, hsyn] at hpulse
  obtain ⟨-, -, -, hlevel⟩ := hpulse hactive
  rw [hsyn]
  exact hlevel hon

theorem runOutputs_of_no_transition {el : Nat} {y : Syn} {o : Slot} (hon : el ≠ y.onAt[o]) (hoff : el ≠ y.offAt[o]) :
    (runOutputs el y).getLsbD o.val = y.level.getLsbD o.val := by
  rw [runOutputs_getLsbD, if_neg hon, if_neg hoff, ite_self]

/-- Before both its transition ticks an output keeps the level it had at the frame start. -/
theorem runTicks_level_of_lt {s : State} (hin : s.InFrame 0) {l : List (BitVec 4 × Draws)}
    (hl : l.length < frameLen s.syn) {o : Slot} (hon : l.length < s.syn.onAt[o]) (hoff : l.length < s.syn.offAt[o]) :
    (runTicks l s).syn.level.getLsbD o.val = s.syn.level.getLsbD o.val := by
  induction l using List.reverseRecOn with
  | nil => rfl
  | append_singleton l x ih =>
    rw [List.length_append, List.length_singleton] at hl hon hoff
    have ih := ih (Nat.lt_of_succ_lt hl) (Nat.lt_of_succ_lt hon) (Nat.lt_of_succ_lt hoff)
    obtain ⟨hin', level, hsyn⟩ := hin.after_ticks (Nat.lt_of_succ_lt hl)
    obtain ⟨-, hsyn'⟩ := hin'.after_tick (by rw [hsyn]; exact hl) x.1 (boundedDraws x.2)
    rw [runTicks_append_singleton, hsyn', ← ih]
    refine runOutputs_of_no_transition ?_ ?_ <;> rw [hsyn]
    · exact hon.ne
    · exact hoff.ne

/-- Settles O47: the turn-on tick of a compare output is 0, and its turn-off tick is its target. -/
theorem compareOutputIsHighForActTicks : Obligations.CompareOutputIsHighForActTicks := by
  intro s l o hs hen hreq helapsed hactive hcompare hl
  have hin : s.InFrame 0 := helapsed ▸ hs.inFrame hen hreq
  obtain ⟨-, -, hticks, -⟩ := hs.pulsesTimed o hactive
  obtain ⟨honAt, hoffAt⟩ := hticks hcompare
  rw [runTicks_level_of_turnOn_le hs hin hl hactive (honAt ▸ Nat.zero_le _), hoffAt]

/-- Settles O48: the output is low before its turn-on tick, which the jitter bound keeps below every turn-off tick. -/
theorem polledOutputSwitchesWithinJitter : Obligations.PolledOutputSwitchesWithinJitter := by
  intro s l o hs hen hreq helapsed hactive _ hlow hl
  have hin : s.InFrame 0 := helapsed ▸ hs.inFrame hen hreq
  obtain ⟨honLe, hoffGe, -⟩ := hs.transitionsLegal o
  obtain ⟨hoff0, hoff1, -⟩ := hs.pulsesTimed o hactive
  refine ⟨?_, honLe, hoff0, hoff1⟩
  by_cases hon : s.syn.onAt[o] ≤ l.length
  · rw [runTicks_level_of_turnOn_le hs hin hl hactive hon]
    simp only [hon, true_and]
  · have hjitter : Config.jitterTicks < 8000 := Config.jitter.isLt
    rw [runTicks_level_of_lt hin hl (Nat.lt_of_not_le hon) (by omega), hlow, decide_eq_decide]
    omega

end Sys2Proof.Machine
end

section
/-! Errors and interrupts: the illegal transaction, that nothing stops the block, and what each move leaves pending (spec
60_exceptions.md). -/

namespace Sys2Proof.Machine

/-! ### The illegal transaction (60_exceptions.md R231) -/

theorem illegalTransaction_eq (w : BusWord) (s : State) :
    illegalTransaction w s = {
      s with
      busErr := true
      irqPend := (raiseIrq .err s).irqPend
      busRdata := if fieldW w then none else some 0 } := by
  unfold illegalTransaction
  cases fieldW w <;> rfl

theorem getLsbD_raiseIrq_err (s : State) (b : Nat) :
    (raiseIrq .err s).irqPend.getLsbD b = (s.irqPend.getLsbD b || decide (b = 10)) :=
  (getLsbD_raiseIrq .err s b).trans (Bool.or_comm _ _)

/-- Settles O8: the scheduled word is performed as the illegal transaction, which raises ERR. -/
theorem illegalTransactionOnlyFlagsTheError : Obligations.IllegalTransactionOnlyFlagsTheError := by
  intro s t rest e hs hd
  refine ⟨(raiseIrq .err s).irqPend, ?_, getLsbD_raiseIrq_err s⟩
  rw [step_of_schedule_cons hs, perform_host_error t e _ hd, illegalTransaction_eq]
  rfl

/-! ### Nothing stops the block (60_exceptions.md R230) -/

theorem perform_host_completes (w : BusWord) (s : State) : ∃ t, perform (.host w) s = .next t := by
  cases hd : decode w with
  | error e => exact ⟨_, perform_host_error w e s hd⟩
  | ok i =>
    rw [perform_host_ok w i s hd]
    by_cases hreset : i = .cmdSoftReset
    · subst hreset
      exact ⟨resetState s, rfl⟩
    · obtain ⟨t, ht, -⟩ := exec_effect i s (wellFormed_of_decode hd) hreset
      exact ⟨t, ht⟩

theorem perform_completes (m : Stimulus) (s : State) : ∃ t, perform m s = .next t := by
  cases m with
  | host w => exact perform_host_completes w s
  | tick levels d => exact ⟨_, perform_tick levels d s⟩
  | reset => exact ⟨_, perform_reset s⟩

/-- Settles O10: a step is one move, scheduled or free, and every move completes. -/
theorem nothingStopsTheBlock : Obligations.NothingStopsTheBlock := by
  intro s
  obtain ⟨m, rest, -, hstep⟩ | ⟨-, hstep⟩ := step_cases s
  · exact hstep ▸ perform_completes m { s with schedule := rest }
  · exact hstep ▸ perform_completes (Config.freeStimulus s.drawIx) { s with drawIx := s.drawIx + 1 }

/-! ### IRQ (60_exceptions.md R236) -/

/-- Settles O57: IRQ is the level of the bits set in both registers. -/
theorem irqIsTheLevelOfTheEnabledPendingBits : Obligations.IrqIsTheLevelOfTheEnabledPendingBits := irq_eq_true_iff

/-! ### What a move leaves pending (60_exceptions.md R233 to R235) -/

/-- A tick starts a frame: the sequencer is enabled, and a frame is requested or the running one is over (43_synth.md
R182). -/
def frameDue (s : State) : Bool :=
  s.syn.en && (s.syn.startReq || decide (frameLen s.syn ≤ (s.tcnt + 1 - s.syn.fstart).toNat))

/-- The pending bits a tick raises: RISE and FALL of the channels that act, and at a frame start FRAME, with LATCH if a
commit is latched (60_exceptions.md R233). -/
def raisedByTick (levels : BitVec 4) (s : State) (b : Nat) : Bool :=
  (allChans.any fun n =>
      (recordsRise levels n s && decide (b = 4 + n.val)) || (publishes levels n s && decide (b = n.val))) ||
    (frameDue s && (decide (b = 8) || (s.syn.pend && decide (b = 9))))

/-- What a legal transaction leaves of the pending bits: WR IRQ_PEND clears the bits DATA names, SOFT_RESET all of them
(60_exceptions.md R235). -/
def pendingAfterTransaction (i : Instr) (pend : BitVec 11) : BitVec 11 :=
  match i with
  | .wrIrqPend v => pend &&& ~~~lowBits 11 v
  | .cmdSoftReset => 0#11
  | _ => pend

/-- Bit `b` of IRQ_PEND after a move (60_exceptions.md R231, R233, R235). -/
def pendingAfter (m : Stimulus) (s : State) (b : Nat) : Bool :=
  match m with
  | .reset => false
  | .tick levels _ => s.irqPend.getLsbD b || raisedByTick levels s b
  | .host w =>
    match decode w with
    | .error _ => s.irqPend.getLsbD b || decide (b = 10)
    | .ok i => (pendingAfterTransaction i s.irqPend).getLsbD b

theorem pendingAfterTransaction_wrIrqPend (v : Reg) (pend : BitVec 11) :
    pendingAfterTransaction (.wrIrqPend v) pend = pend &&& ~~~lowBits 11 v := rfl

theorem pendingAfter_host_error {w : BusWord} {e : Illegal} (hd : decode w = .error e) (s : State) (b : Nat) :
    pendingAfter (.host w) s b = (s.irqPend.getLsbD b || decide (b = 10)) := by
  simp only [pendingAfter, hd]

theorem pendingAfter_host_ok {w : BusWord} {i : Instr} (hd : decode w = .ok i) (s : State) (b : Nat) :
    pendingAfter (.host w) s b = (pendingAfterTransaction i s.irqPend).getLsbD b := by
  simp only [pendingAfter, hd]

/-- To what the capture unit raises, a tick adds FRAME and LATCH at a frame start (43_synth.md R183). -/
theorem tick_irqPend_eq_sampled (levels : BitVec 4) (d : Draws) (s : State) (b : Nat) :
    (tick levels d s).irqPend.getLsbD b = ((s.sampled levels).irqPend.getLsbD b ||
      (frameDue s && (decide (b = 8) || (s.syn.pend && decide (b = 9))))) := by
  cases hdue : frameDue s with
  | true =>
    obtain ⟨hen, hstart⟩ : s.syn.en = true ∧
        (s.syn.startReq = true ∨ frameLen s.syn ≤ (s.tcnt + 1 - s.syn.fstart).toNat) := by simpa [frameDue] using hdue
    rw [tick_of_due levels d hen hstart, frameStart_irqPend, sampled_syn, Bool.true_and]
    exact Bool.or_comm _ _
  | false =>
    rw [Bool.false_and, Bool.or_false]
    cases hen : s.syn.en with
    | false => rw [tick_eq_synthTick_sampled, synthTick_of_disabled d (by rwa [sampled_syn])]
    | true =>
      obtain ⟨hreq, hinside⟩ : s.syn.startReq = false ∧ (s.tcnt + 1 - s.syn.fstart).toNat < frameLen s.syn := by
        simpa [frameDue, hen] using hdue
      rw [tick_of_inside levels d hen hreq hinside]

theorem tick_irqPend (levels : BitVec 4) (d : Draws) (s : State) (b : Nat) :
    (tick levels d s).irqPend.getLsbD b = (s.irqPend.getLsbD b || raisedByTick levels s b) := by
  rw [tick_irqPend_eq_sampled, State.sampled, captureTick_irqPend, Bool.or_assoc]
  rfl

/-- Only WR IRQ_PEND and SOFT_RESET write IRQ_PEND; the writes with a constraint write the synthesizer alone. -/
theorem exec_irqPend {i : Instr} (hwf : i.wellFormed = true) (s : State) :
    ∃ t, exec i s = .next t ∧ t.irqPend = pendingAfterTransaction i s.irqPend := by
  cases i with
  | wrSynRoute0 v =>
    obtain ⟨r0, r1, r2, r3, hexec, -⟩ := exec_wrSynRoute0_of_legal ((legalRoute0_iff v).mp hwf) s
    exact ⟨_, hexec, rfl⟩
  | wrSynRoute1 v =>
    obtain ⟨r4, r5, hexec, -⟩ := exec_wrSynRoute1_of_legal ((legalRoute1_iff v).mp hwf) s
    exact ⟨_, hexec, rfl⟩
  | wrSynCmd k v =>
    obtain ⟨o, ho⟩ := indexSlot_of_legal hwf
    have hexec : exec (.wrSynCmd k v) s = .next { silent s with syn.cmd := s.syn.cmd.set o v } := by
      simp only [exec, execWrSynCmd, ho]
    exact ⟨_, hexec, rfl⟩
  | rdSynCmd k | rdSynAct k =>
    obtain ⟨value, hexec, -⟩ := exec_read _ hwf rfl
    exact ⟨_, hexec s, rfl⟩
  | _ => exact ⟨_, rfl, rfl⟩

/-- The pending bits after a move, whichever agent makes it. -/
theorem perform_irqPend {m : Stimulus} {s t : State} (h : perform m s = .next t) (b : Nat) :
    t.irqPend.getLsbD b = pendingAfter m s b := by
  cases m with
  | reset =>
    cases h
    exact BitVec.getLsbD_zero
  | tick levels d =>
    cases h
    exact tick_irqPend levels (boundedDraws d) s b
  | host w =>
    cases hd : decode w with
    | error e =>
      rw [perform_host_error w e s hd] at h
      cases h
      rw [pendingAfter_host_error hd, illegalTransaction_eq, getLsbD_raiseIrq_err]
    | ok i =>
      obtain ⟨t', hexec, hpend⟩ := exec_irqPend (wellFormed_of_decode hd) s
      rw [perform_host_ok w i s hd, hexec] at h
      cases h
      rw [pendingAfter_host_ok hd, hpend]

/-- 60_exceptions.md R235: the two transactions that clear a pending bit. -/
theorem clears_of_pendingAfterTransaction {i : Instr} {pend : BitVec 11} {b : Nat} (hset : pend.getLsbD b = true)
    (hclear : (pendingAfterTransaction i pend).getLsbD b = false) :
    i = .cmdSoftReset ∨ ∃ v : Reg, i = .wrIrqPend v ∧ v.getLsbD b = true := by
  cases i with
  | wrIrqPend v =>
    have hb : b < 11 := BitVec.lt_of_getLsbD hset
    rw [pendingAfterTransaction_wrIrqPend, BitVec.getLsbD_and, BitVec.getLsbD_not, getLsbD_lowBits_of_lt hb, hset,
      decide_eq_true hb, Bool.true_and, Bool.true_and] at hclear
    exact .inr ⟨v, rfl, by simpa using hclear⟩
  | cmdSoftReset => exact .inl rfl
  | _ => exact nomatch hset.symm.trans hclear

/-- Settles O51, by the move: ticks and illegal words only raise bits, and of the legal transactions WR IRQ_PEND and
SOFT_RESET clear some. -/
theorem pendingBitsAreClearedOnlyByAckOrReset : Obligations.PendingBitsAreClearedOnlyByAckOrReset := by
  intro m s t b h hset hclear
  rw [perform_irqPend h] at hclear
  cases m with
  | reset => exact .inl rfl
  | tick levels d => simp [pendingAfter, hset] at hclear
  | host w =>
    cases hd : decode w with
    | error e => simp [pendingAfter_host_error hd, hset] at hclear
    | ok i =>
      rw [pendingAfter_host_ok hd] at hclear
      obtain rfl | ⟨v, rfl, hv⟩ := clears_of_pendingAfterTransaction hset hclear
      · exact .inl (by rw [word_of_decode_cmdSoftReset hd]; rfl)
      · exact .inr ⟨w, v, rfl, hd, hv⟩

/-- Settles O58: no bit of `pendingAfter` reads an enable. -/
theorem pendingDoesNotDependOnEnables : Obligations.PendingDoesNotDependOnEnables := by
  intro m s t u en ht hu
  refine BitVec.eq_of_getLsbD_eq fun b _ => ?_
  have hsame : pendingAfter m { s with irqEn := en } b = pendingAfter m s b := by cases m <;> rfl
  rw [perform_irqPend hu, perform_irqPend ht, hsame]

end Sys2Proof.Machine
end

section
/-! The invariant of the block after reset, whatever WIDTH and START hold (spec 70_reset_and_hazards.md R250, R251). -/

namespace Sys2Proof.Machine

/-- ResetState() leaves WIDTH and START alone and every other element is at its reset value already, so the power-on
state is its own reset. -/
theorem resetState_powerOn (width start : Vector Reg 4) :
    resetState (State.powerOn width start) = State.powerOn width start :=
  resetState_eq_powerOn (State.powerOn width start)

theorem State.powerOn_inv (width start : Vector Reg 4) : (State.powerOn width start).Inv := by
  rw [← resetState_powerOn]
  exact resetState_inv (State.powerOn width start)

/-- Settles O50: the reset state is the power-on state with WIDTH and START 0. -/
theorem invariantHoldsAfterReset : Obligations.InvariantHoldsAfterReset :=
  ⟨State.powerOn_inv #v[0, 0, 0, 0] #v[0, 0, 0, 0], State.powerOn_inv⟩

end Sys2Proof.Machine
end
